-- ==== Sys2Proof/Word.lean ====
section
/-! DEFINITION. The widths of the block's words (spec/00_scope.md §4) and the values it only passes on
(10_state.md R22, R23; 46_external_ports.md R118): tokens that can be compared for equality and nothing else. -/

namespace Sys2Proof

/-- One byte of a frame (20_memory.md R33). -/
abbrev Byte := BitVec 8

/-- The 8-bit operation word (30_encoding.md R45). -/
abbrev OpWord := BitVec 8

/-- A driver status code, STATUS_W = 16 bits, two's complement (R57). -/
abbrev Status := BitVec 16

/-- STATUS_OK, the one status that means success (R57). -/
abbrev statusOk : Status := 0#16

/-- A time sample of TIME_W = 32 bits, in milliseconds (45_guard_timer.md R103). -/
abbrev Time := BitVec 32

/-- A guard duration of PD_W + 1 = 33 bits, in milliseconds (R15, R105). -/
abbrev Duration := BitVec 33

/-- The getModemStatus bitfield of MODEM_STATUS_W = 16 bits (R119). -/
abbrev ModemStatus := BitVec 16

/-- A carrier frequency: compared for equality, never computed with (R23). -/
structure Freq where
  token : Nat
deriving DecidableEq, Repr, Inhabited

/-- `bandwidth` of a configuration slot, opaque to the block (R22). -/
structure Bandwidth where
  token : Nat
deriving DecidableEq, Repr, Inhabited

/-- `spreadingFactor` of a configuration slot, opaque to the block (R22). -/
structure SpreadingFactor where
  token : Nat
deriving DecidableEq, Repr, Inhabited

/-- `codingRate` of a configuration slot, opaque to the block (R22). -/
structure CodingRate where
  token : Nat
deriving DecidableEq, Repr, Inhabited

/-- `txPower` of a configuration slot, opaque to the block (R22). -/
structure TxPower where
  token : Nat
deriving DecidableEq, Repr, Inhabited

/-- `preambleLen` of a configuration slot, opaque to the block (R22). -/
structure PreambleLen where
  token : Nat
deriving DecidableEq, Repr, Inhabited

/-- `rxGain` of a configuration slot, opaque to the block (R22). -/
structure RxGain where
  token : Nat
deriving DecidableEq, Repr, Inhabited

/-- The syncWord argument of begin (parameter SYNC_WORD, 92 D10). -/
structure SyncWord where
  token : Nat
deriving DecidableEq, Repr, Inhabited

/-- The mode argument of startReceive (parameter RX_MODE_SINGLE, 92 D35). -/
structure RxMode where
  token : Nat
deriving DecidableEq, Repr, Inhabited

/-- A signal-quality metric, only copied into a log record (R118). -/
structure Metric where
  token : Nat
deriving DecidableEq, Repr, Inhabited

/-- An application message (92 D39). -/
structure Msg where
  token : Nat
deriving DecidableEq, Repr, Inhabited

/-- A display summary (92 D39). -/
structure Text where
  token : Nat
deriving DecidableEq, Repr, Inhabited

end Sys2Proof
end

