-- ==== Sys2Proof/Config.lean ====
section
/-! DEFINITION. What an implementation fixes (the parameter table of spec/00_scope.md §4) and the values the
environment chooses when a state names none (spec/93_implementation_defined.md §2). The OPEN parameters and the
environment's values are constants without a body: no proof can learn what they are. -/

namespace Sys2Proof

/-- One configuration slot: the nine fields of 10_state.md R22. -/
structure Slot where
  rxFreq : Freq
  txFreq : Freq
  bandwidth : Bandwidth
  spreadingFactor : SpreadingFactor
  codingRate : CodingRate
  txPower : TxPower
  preambleLen : PreambleLen
  preambleDurationMs : BitVec 32
  rxGain : RxGain
deriving DecidableEq, Repr, Inhabited

/-- The failing ErrKinds of 30_encoding.md R58, codes 1 to 8. Code 0, OK, is the absence of one. -/
inductive ErrKind where
  | freq
  | bw
  | sf
  | cr
  | power
  | preamble
  | gain
  | other
deriving DecidableEq, Repr, Inhabited

/-- The parameter classifyBeginStatus, a total function from 16-bit statuses to 4-bit codes (92 D12), as plain
data: the codes of the listed statuses, and the kind of every failing status not listed. A status that is not
listed and does not fail has code 0. Every total function that R58 allows has this form, and so has every one
that it forbids. -/
structure Classifier where
  table : List (Status × BitVec 4)
  rest : ErrKind
deriving DecidableEq, Repr, Inhabited

/-- The three bytes of FRAME_PREFIX (PREFIX_LEN = 3, 20_memory.md R34). -/
structure FramePrefix where
  b0 : Byte
  b1 : Byte
  b2 : Byte
deriving DecidableEq, Repr, Inhabited

/-- The parameters a model takes as arguments (00_scope.md R4, 10_state.md R21). They stand in the state as
constants that no operation writes, so that a claim over every state is a claim for every value of them. -/
structure Params where
  /-- CFG_SLOT[0] -/
  slot0 : Slot
  /-- CFG_SLOT[1] -/
  slot1 : Slot
  syncWord : SyncWord
  rxMode : RxMode
  rxBusyMask : ModemStatus
  framePrefix : FramePrefix
  classifier : Classifier
  rescanAfterTx : Bool
  txInflightOnStartFailure : Bool
deriving DecidableEq, Repr, Inhabited

namespace Config

/-- CFG_SLOT[0] of the machine after reset: the spec gives no contents (R21). -/
opaque slot0 : Slot
/-- CFG_SLOT[1] of the machine after reset: the spec gives no contents (R21). -/
opaque slot1 : Slot
/-- SYNC_WORD, OPEN (92 D10). -/
opaque syncWord : SyncWord
/-- RX_MODE_SINGLE, OPEN (92 D35). -/
opaque rxMode : RxMode
/-- RX_BUSY_MASK, OPEN (92 D22). -/
opaque rxBusyMask : ModemStatus
/-- classifyBeginStatus, OPEN (92 D12): the kinds of the failing statuses that have one of their own. -/
opaque beginKinds : List (Status × ErrKind)
/-- classifyBeginStatus, OPEN (92 D12): the kind of every other failing status. -/
opaque otherKind : ErrKind
/-- ENCODE, OPEN (92 D39). -/
opaque encodeMsg : Msg → List Byte
/-- DECODE, OPEN (92 D39). -/
opaque decodeMsg : List Byte → Msg
/-- SUMMARY, OPEN (92 D39). -/
opaque summary : Msg → Text

/-- A driver status the environment answers (R110): any value. -/
opaque freeStatus : Nat → Status
/-- What the environment answers to readData (R116): any bytes, any status. -/
opaque freeReadData : Nat → List Byte × Status
/-- A metric the environment answers (R118): any value. -/
opaque freeMetric : Nat → Metric
/-- A modem status the environment answers (R119): any value. -/
opaque freeModemStatus : Nat → ModemStatus
/-- A time sample and how many whole turns of the 32-bit counter passed besides (R103): any values. -/
opaque freeTime : Nat → Time × Nat
/-- The message a dequeue from an empty queue yields: no rule states one (R122). -/
opaque freeMsg : Nat → Msg

/-- The default FRAME_PREFIX (00_scope.md §4; general knowledge by the spec's own mark, 93 §5). -/
def defaultPrefix : FramePrefix := ⟨0x3C#8, 0xFF#8, 0x01#8⟩

end Config

end Sys2Proof
end

