-- ==== Sys2Proof/Syntax.lean ====
section
/-! DEFINITION. The block's three alphabets (spec/00_scope.md R2): its operations, one constructor of `Instr` for
each row of spec/opcode_table.json; the phases its sequencer steps through; the records that travel beside a word
(30_encoding.md R56), the log records (R60), and the lines of a trace (R61, R62). -/

namespace Sys2Proof

/-- The operations of spec/opcode_table.json. A word carries no operand (R56), so no constructor has one. -/
inductive Instr where
  | reset
  | setup
  | tickBegin
  | step
  | irqDone
  | irqPreamble
  | drvBegin
  | drvSetCrc
  | drvSetFrequency
  | drvStartChannelScan
  | drvStartReceive
  | drvReadData
  | drvStartTransmit
  | drvGetRssi
  | drvGetSnr
  | drvGetFreqError
  | drvGetModemStatus
  | drvAttachIrq
  | outqEmpty
  | outqDequeue
  | inqPush
  | displayShow
  | logEmit
  | phIdle
  | phSample
  | phGateOff
  | phTxComplete
  | phRxConsume
  | phPreambleArm
  | phScanRearm
  | phLatchClear
  | phGateOn
  | phGuardCheck
  | phTxAttempt
deriving DecidableEq, Repr

/-- The values of PHASE: the eleven phases of 30_encoding.md R51. -/
inductive Phase where
  | idle
  | sample
  | gateOff
  | txComplete
  | rxConsume
  | preambleArm
  | scanRearm
  | latchClear
  | gateOn
  | guardCheck
  | txAttempt
deriving DecidableEq, Repr

/-- The operation classes of R46. -/
inductive OpClass where
  | control
  | interrupt
  | driver
  | collaborator
  | phase
  | reserved
deriving DecidableEq, Repr

/-- The direction a frequency switch prepares (43_frequency_switch.md R88). -/
inductive Dir where
  | rx
  | tx
deriving DecidableEq, Repr, Inhabited

/-- The two interrupt lines (R48): 0 is operation-complete, 1 is preamble-detected. -/
inductive IrqLine where
  | line0
  | line1
deriving DecidableEq, Repr, Inhabited

/-- A LOG_EMIT record: the ten kinds of R60, each with the values it carries. -/
inductive LogRecord where
  | cfgError (k : ErrKind) (st : Status)
  | crcError (st : Status)
  | setupScanFail (st : Status)
  | txOk (txres : Status)
  | txFail (txres : Status)
  | txStartFail (st : Status)
  | rxUnrecognized (rssi snr freqError : Metric) (frame : List Byte)
  | rxReadFail (st : Status)
  | rxArmFail (st : Status)
  | scanFail (st : Status)
deriving DecidableEq, Repr

/-- The severity of a log record (R60). -/
inductive Severity where
  | info
  | warn
  | error
deriving DecidableEq, Repr

/-- One command at the block's ports: its operands, and the result the environment answered (R49, R50, R110). -/
inductive PortEvent where
  | drvBegin (freq : Freq) (bandwidth : Bandwidth) (spreadingFactor : SpreadingFactor) (codingRate : CodingRate)
      (syncWord : SyncWord) (power : TxPower) (preambleLen : PreambleLen) (gain : RxGain) (st : Status)
  | drvSetCrc (on : Bool) (st : Status)
  | drvSetFrequency (freq : Freq) (st : Status)
  | drvStartChannelScan (st : Status)
  | drvStartReceive (mode : RxMode) (st : Status)
  | drvReadData (frame : List Byte) (st : Status)
  | drvStartTransmit (frame : List Byte) (st : Status)
  | drvGetRssi (m : Metric)
  | drvGetSnr (m : Metric)
  | drvGetFreqError (m : Metric)
  | drvGetModemStatus (ms : ModemStatus)
  | drvAttachIrq (line : IrqLine)
  | outqEmpty (answer : Bool)
  | outqDequeue (m : Msg)
  | inqPush (m : Msg)
  | displayShow (t : Text)
  | logEmit (r : LogRecord)
deriving DecidableEq, Repr

/-- A named draw of a trace line (R61). `now` gives the sample, and the whole turns of the 32-bit counter that passed
besides (notes/assumptions/9.md). -/
inductive Draw where
  | beginStatus (st : Status)
  | setCrc (st : Status)
  | setFrequency (st : Status)
  | startChannelScan (st : Status)
  | startReceive (st : Status)
  | readData (frame : List Byte) (st : Status)
  | startTransmit (st : Status)
  | getRssi (m : Metric)
  | getSnr (m : Metric)
  | getFreqError (m : Metric)
  | getModemStatus (ms : ModemStatus)
  | now (sample : Time) (turns : Nat)
  | outqEmpty (answer : Bool)
  | outqDequeue (m : Msg)
deriving DecidableEq, Repr

/-- Which way a word stands at the block's boundary (the direction column of R46): presented to it as an input,
or issued by the block itself as a command or a phase. -/
inductive Side where
  | input
  | issued
deriving DecidableEq, Repr

/-- The record that travels beside an issued word (R56): for each command, what its rule leaves to the site that
issues it. A rule that fixes an operand (R111, R112, R115) takes it from the configuration and the parameters. -/
structure Operands where
  /-- DRV_SET_FREQUENCY sends the receive or the transmit frequency (R113). -/
  dir : Dir
  /-- DRV_ATTACH_IRQ registers the handler of one line (R120). -/
  line : IrqLine
  /-- DRV_START_TRANSMIT sends the frame of this message (R117), DISPLAY_SHOW its summary (R124). -/
  msg : Msg
  /-- INQ_PUSH pushes the message decoded from this payload (R123). -/
  payload : List Byte
  /-- LOG_EMIT sends this record (R125). -/
  record : LogRecord
deriving DecidableEq, Repr

/-- One operation at the block's boundary: the word, the record beside it, the messages that producers append to
the outbound queue before it (20_memory.md R44), and the draws of its line (R61). `none` goes on with the draws of
the line before, as the STEPs of a TICK do (R62). -/
structure OpLine where
  side : Side
  word : OpWord
  operands : Operands
  arrivals : List Msg
  draws : Option (List Draw)
deriving DecidableEq, Repr

/-- The `word` of a trace line (R61): one of the six inputs, or a pseudo-operation (R62). -/
inductive TraceWord where
  | reset
  | setup
  | tickBegin
  | step
  | irqDone
  | irqPreamble
  | tick
  | boot
  | irqBoth
  | stepTo (p : Phase)
deriving DecidableEq, Repr

/-- A line of a trace (R61), with the messages that producers append before it. -/
structure TraceLine where
  word : TraceWord
  draws : List Draw
  arrivals : List Msg
deriving DecidableEq, Repr

end Sys2Proof
end

