-- ==== Sys2Proof/Decode.lean ====
section
/-! DEFINITION. The operation word (spec/30_encoding.md R45 to R55): its two fields, the decoder, total on every
byte, the encoder, and the names. -/

namespace Sys2Proof

/-- What a byte decodes to (R54): one of the named words, or reserved. -/
inductive Decoded where
  | op (i : Instr)
  | reserved
deriving DecidableEq, Repr

/-- The CLS field, bits 7:5 (R45). -/
def clsField (w : OpWord) : BitVec 3 := w.extractLsb' 5 3

/-- The CODE field, bits 4:0 (R45). -/
def codeField (w : OpWord) : BitVec 5 := w.extractLsb' 0 5

/-- The word with these two fields (R45). -/
def opWord (cls : BitVec 3) (code : BitVec 5) : OpWord := cls ++ code

/-- The class a CLS field names (R46). -/
def classOf (cls : BitVec 3) : OpClass :=
  match cls.toNat with
  | 0 => .control
  | 1 => .interrupt
  | 2 => .driver
  | 3 => .collaborator
  | 4 => .phase
  | _ => .reserved

/-- The class of a word (R46). -/
def wordClass (w : OpWord) : OpClass := classOf (clsField w)

/-- Control inputs (R47). -/
def decodeControl (code : Nat) : Decoded :=
  match code with
  | 0x00 => .op .reset
  | 0x01 => .op .setup
  | 0x02 => .op .tickBegin
  | 0x03 => .op .step
  | _ => .reserved

/-- Interrupt lines (R48). -/
def decodeInterrupt (code : Nat) : Decoded :=
  match code with
  | 0x00 => .op .irqDone
  | 0x01 => .op .irqPreamble
  | _ => .reserved

/-- Driver commands (R49). -/
def decodeDriver (code : Nat) : Decoded :=
  match code with
  | 0x00 => .op .drvBegin
  | 0x01 => .op .drvSetCrc
  | 0x02 => .op .drvSetFrequency
  | 0x03 => .op .drvStartChannelScan
  | 0x04 => .op .drvStartReceive
  | 0x05 => .op .drvReadData
  | 0x06 => .op .drvStartTransmit
  | 0x07 => .op .drvGetRssi
  | 0x08 => .op .drvGetSnr
  | 0x09 => .op .drvGetFreqError
  | 0x0A => .op .drvGetModemStatus
  | 0x0B => .op .drvAttachIrq
  | _ => .reserved

/-- Collaborator operations (R50). -/
def decodeCollaborator (code : Nat) : Decoded :=
  match code with
  | 0x00 => .op .outqEmpty
  | 0x01 => .op .outqDequeue
  | 0x02 => .op .inqPush
  | 0x03 => .op .displayShow
  | 0x04 => .op .logEmit
  | _ => .reserved

/-- Sequencer phases (R51). -/
def decodePhase (code : Nat) : Decoded :=
  match code with
  | 0x00 => .op .phIdle
  | 0x01 => .op .phSample
  | 0x02 => .op .phGateOff
  | 0x03 => .op .phTxComplete
  | 0x04 => .op .phRxConsume
  | 0x05 => .op .phPreambleArm
  | 0x06 => .op .phScanRearm
  | 0x07 => .op .phLatchClear
  | 0x08 => .op .phGateOn
  | 0x09 => .op .phGuardCheck
  | 0x0A => .op .phTxAttempt
  | _ => .reserved

/-- The decoder of R54: CLS first, then CODE. -/
def decode (w : OpWord) : Decoded :=
  match wordClass w with
  | .control => decodeControl (codeField w).toNat
  | .interrupt => decodeInterrupt (codeField w).toNat
  | .driver => decodeDriver (codeField w).toNat
  | .collaborator => decodeCollaborator (codeField w).toNat
  | .phase => decodePhase (codeField w).toNat
  | .reserved => .reserved

/-- The class and the code of an operation, from the tables of R47 to R51. -/
def encode (i : Instr) : OpWord :=
  match i with
  | .reset => opWord 0b000 0b00000
  | .setup => opWord 0b000 0b00001
  | .tickBegin => opWord 0b000 0b00010
  | .step => opWord 0b000 0b00011
  | .irqDone => opWord 0b001 0b00000
  | .irqPreamble => opWord 0b001 0b00001
  | .drvBegin => opWord 0b010 0b00000
  | .drvSetCrc => opWord 0b010 0b00001
  | .drvSetFrequency => opWord 0b010 0b00010
  | .drvStartChannelScan => opWord 0b010 0b00011
  | .drvStartReceive => opWord 0b010 0b00100
  | .drvReadData => opWord 0b010 0b00101
  | .drvStartTransmit => opWord 0b010 0b00110
  | .drvGetRssi => opWord 0b010 0b00111
  | .drvGetSnr => opWord 0b010 0b01000
  | .drvGetFreqError => opWord 0b010 0b01001
  | .drvGetModemStatus => opWord 0b010 0b01010
  | .drvAttachIrq => opWord 0b010 0b01011
  | .outqEmpty => opWord 0b011 0b00000
  | .outqDequeue => opWord 0b011 0b00001
  | .inqPush => opWord 0b011 0b00010
  | .displayShow => opWord 0b011 0b00011
  | .logEmit => opWord 0b011 0b00100
  | .phIdle => opWord 0b100 0b00000
  | .phSample => opWord 0b100 0b00001
  | .phGateOff => opWord 0b100 0b00010
  | .phTxComplete => opWord 0b100 0b00011
  | .phRxConsume => opWord 0b100 0b00100
  | .phPreambleArm => opWord 0b100 0b00101
  | .phScanRearm => opWord 0b100 0b00110
  | .phLatchClear => opWord 0b100 0b00111
  | .phGateOn => opWord 0b100 0b01000
  | .phGuardCheck => opWord 0b100 0b01001
  | .phTxAttempt => opWord 0b100 0b01010

/-- The operation a value of PHASE names (R51). -/
def Phase.instr (p : Phase) : Instr :=
  match p with
  | .idle => .phIdle
  | .sample => .phSample
  | .gateOff => .phGateOff
  | .txComplete => .phTxComplete
  | .rxConsume => .phRxConsume
  | .preambleArm => .phPreambleArm
  | .scanRearm => .phScanRearm
  | .latchClear => .phLatchClear
  | .gateOn => .phGateOn
  | .guardCheck => .phGuardCheck
  | .txAttempt => .phTxAttempt

/-- The 8-bit value of PHASE (10_state.md R24). -/
def Phase.code (p : Phase) : OpWord := encode p.instr

/-- The phase a phase word names; `none` for the words of the other classes (R51). -/
def Instr.phase? (i : Instr) : Option Phase :=
  match i with
  | .phIdle => some .idle
  | .phSample => some .sample
  | .phGateOff => some .gateOff
  | .phTxComplete => some .txComplete
  | .phRxConsume => some .rxConsume
  | .phPreambleArm => some .preambleArm
  | .phScanRearm => some .scanRearm
  | .phLatchClear => some .latchClear
  | .phGateOn => some .gateOn
  | .phGuardCheck => some .guardCheck
  | .phTxAttempt => some .txAttempt
  | _ => none

/-- The class of an operation's word. -/
def Instr.opClass (i : Instr) : OpClass := wordClass (encode i)

/-- The side on which words of this class stand when the block works as the spec says (the direction column of
R46): control and interrupt words come in, the others are the block's own. -/
def OpClass.side (c : OpClass) : Side :=
  match c with
  | .control => .input
  | .interrupt => .input
  | .driver => .issued
  | .collaborator => .issued
  | .phase => .issued
  | .reserved => .input

/-- The bytes of an instruction of `nbits` bits, the first at the lowest place: byte k is bits 8k+7 to 8k. -/
def wordBytes (nbits w : Nat) : List Byte :=
  (List.range (nbits / 8)).map fun k => BitVec.ofNat 8 (w >>> (8 * k))

/-- The operation the decoder reads from a row of spec/opcode_table.json: one byte, for the format has one length
(R55). -/
def decodeTableWord (nbits w : Nat) : Option Instr :=
  match wordBytes nbits w with
  | [b] =>
    match decode b with
    | .op i => some i
    | .reserved => none
  | _ => none

/-- The word of a port command (R49, R50). -/
def PortEvent.word (e : PortEvent) : OpWord :=
  match e with
  | .drvBegin .. => encode .drvBegin
  | .drvSetCrc .. => encode .drvSetCrc
  | .drvSetFrequency .. => encode .drvSetFrequency
  | .drvStartChannelScan .. => encode .drvStartChannelScan
  | .drvStartReceive .. => encode .drvStartReceive
  | .drvReadData .. => encode .drvReadData
  | .drvStartTransmit .. => encode .drvStartTransmit
  | .drvGetRssi .. => encode .drvGetRssi
  | .drvGetSnr .. => encode .drvGetSnr
  | .drvGetFreqError .. => encode .drvGetFreqError
  | .drvGetModemStatus .. => encode .drvGetModemStatus
  | .drvAttachIrq .. => encode .drvAttachIrq
  | .outqEmpty .. => encode .outqEmpty
  | .outqDequeue .. => encode .outqDequeue
  | .inqPush .. => encode .inqPush
  | .displayShow .. => encode .displayShow
  | .logEmit .. => encode .logEmit

/-- The 4-bit code of an ErrKind (R58). -/
def ErrKind.code (k : ErrKind) : BitVec 4 :=
  match k with
  | .freq => 1
  | .bw => 2
  | .sf => 3
  | .cr => 4
  | .power => 5
  | .preamble => 6
  | .gain => 7
  | .other => 8

/-- The failing ErrKind a code names (R58); `none` for code 0, OK, and for 9 to 15, which name none. -/
def ErrKind.ofCode (c : BitVec 4) : Option ErrKind :=
  match c.toNat with
  | 1 => some .freq
  | 2 => some .bw
  | 3 => some .sf
  | 4 => some .cr
  | 5 => some .power
  | 6 => some .preamble
  | 7 => some .gain
  | 8 => some .other
  | _ => none

/-- The kind number of a log record (R60). -/
def LogRecord.kind (r : LogRecord) : BitVec 8 :=
  match r with
  | .cfgError .. => 0x01
  | .crcError .. => 0x02
  | .setupScanFail .. => 0x03
  | .txOk .. => 0x10
  | .txFail .. => 0x11
  | .txStartFail .. => 0x12
  | .rxUnrecognized .. => 0x20
  | .rxReadFail .. => 0x21
  | .rxArmFail .. => 0x22
  | .scanFail .. => 0x23

/-- The severity of a log record (R60). -/
def LogRecord.severity (r : LogRecord) : Severity :=
  match r with
  | .txOk .. => .info
  | .rxUnrecognized .. => .warn
  | .cfgError .. => .error
  | .crcError .. => .error
  | .setupScanFail .. => .error
  | .txFail .. => .error
  | .txStartFail .. => .error
  | .rxReadFail .. => .error
  | .rxArmFail .. => .error
  | .scanFail .. => .error

/-- The number of a severity (R60). -/
def Severity.code (v : Severity) : Nat :=
  match v with
  | .info => 0
  | .warn => 1
  | .error => 2

/-- The name of a draw in a trace (R61). -/
def Draw.name (d : Draw) : String :=
  match d with
  | .beginStatus .. => "begin"
  | .setCrc .. => "set_crc"
  | .setFrequency .. => "set_frequency"
  | .startChannelScan .. => "start_channel_scan"
  | .startReceive .. => "start_receive"
  | .readData .. => "read_data"
  | .startTransmit .. => "start_transmit"
  | .getRssi .. => "get_rssi"
  | .getSnr .. => "get_snr"
  | .getFreqError .. => "get_freq_error"
  | .getModemStatus .. => "get_modem_status"
  | .now .. => "now"
  | .outqEmpty .. => "outq_empty"
  | .outqDequeue .. => "outq_dequeue"

/-- The mnemonic of an operation (R47 to R51). -/
def Instr.mnemonic (i : Instr) : String :=
  match i with
  | .reset => "RESET"
  | .setup => "SETUP"
  | .tickBegin => "TICK_BEGIN"
  | .step => "STEP"
  | .irqDone => "IRQ_DONE"
  | .irqPreamble => "IRQ_PREAMBLE"
  | .drvBegin => "DRV_BEGIN"
  | .drvSetCrc => "DRV_SET_CRC"
  | .drvSetFrequency => "DRV_SET_FREQUENCY"
  | .drvStartChannelScan => "DRV_START_CHANNEL_SCAN"
  | .drvStartReceive => "DRV_START_RECEIVE"
  | .drvReadData => "DRV_READ_DATA"
  | .drvStartTransmit => "DRV_START_TRANSMIT"
  | .drvGetRssi => "DRV_GET_RSSI"
  | .drvGetSnr => "DRV_GET_SNR"
  | .drvGetFreqError => "DRV_GET_FREQ_ERROR"
  | .drvGetModemStatus => "DRV_GET_MODEM_STATUS"
  | .drvAttachIrq => "DRV_ATTACH_IRQ"
  | .outqEmpty => "OUTQ_EMPTY"
  | .outqDequeue => "OUTQ_DEQUEUE"
  | .inqPush => "INQ_PUSH"
  | .displayShow => "DISPLAY_SHOW"
  | .logEmit => "LOG_EMIT"
  | .phIdle => "PH_IDLE"
  | .phSample => "PH_SAMPLE"
  | .phGateOff => "PH_GATE_OFF"
  | .phTxComplete => "PH_TX_COMPLETE"
  | .phRxConsume => "PH_RX_CONSUME"
  | .phPreambleArm => "PH_PREAMBLE_ARM"
  | .phScanRearm => "PH_SCAN_REARM"
  | .phLatchClear => "PH_LATCH_CLEAR"
  | .phGateOn => "PH_GATE_ON"
  | .phGuardCheck => "PH_GUARD_CHECK"
  | .phTxAttempt => "PH_TX_ATTEMPT"

end Sys2Proof
end

