-- ==== Sys2Proof/WellFormed.lean ====
section
/-! DEFINITION. Which terms of the syntax the spec can write. An `Instr` carries no operand (spec/30_encoding.md
R56), so each is well formed; what can be ill formed is a line: a reserved word (R52), a word on the wrong side of
the boundary (R46, R53), a draw that the line's word never asks for (R61). -/

namespace Sys2Proof

/-- A line at the boundary is well formed: its word is not reserved (R52), and it stands on the side on which the
words of its class stand (R46). -/
def OpLine.wf (l : OpLine) : Bool :=
  match decode l.word with
  | .op i => decide (i.opClass.side = l.side)
  | .reserved => false

/-- The draws SETUP can ask for (40_setup.md R63). -/
def Draw.ofSetup (d : Draw) : Bool :=
  match d with
  | .beginStatus _ => true
  | .setCrc _ => true
  | .setFrequency _ => true
  | .startChannelScan _ => true
  | _ => false

/-- The draws the phases of a tick can ask for (46_external_ports.md R126, 45_guard_timer.md R103). -/
def Draw.ofTick (d : Draw) : Bool :=
  match d with
  | .beginStatus _ => false
  | .setCrc _ => false
  | _ => true

/-- A trace line names no draw that its word can never ask for (R61). -/
def TraceLine.wf (l : TraceLine) : Bool :=
  match l.word with
  | .reset => l.draws.isEmpty
  | .setup => l.draws.all Draw.ofSetup
  | .tickBegin => l.draws.isEmpty
  | .step => l.draws.all Draw.ofTick
  | .irqDone => l.draws.isEmpty
  | .irqPreamble => l.draws.isEmpty
  | .tick => l.draws.all Draw.ofTick
  | .boot => l.draws.all Draw.ofSetup
  | .irqBoth => l.draws.isEmpty
  | .stepTo _ => l.draws.all Draw.ofTick

end Sys2Proof
end

