-- ==== Sys2Proof/Machine/State.lean ====
section
/-! DEFINITION. The state: the registers of spec/10_state.md, the constant parameters (00_scope.md R4, 10_state.md
R21), the environment behind the ports (60_exceptions.md R140), and the operation at the boundary. -/

namespace Sys2Proof.Machine

open Sys2Proof

/-- LATCH, two bits (10_state.md R7). -/
structure Latch where
  /-- bit 0, `operationDone` -/
  opDone : Bool
  /-- bit 1, `dio1Triggered` -/
  pre : Bool
deriving DecidableEq, Repr

/-- IRQREG, two bits: which lines have a registered handler (R11). -/
structure IrqReg where
  line0 : Bool
  line1 : Bool
deriving DecidableEq, Repr

/-- GUARD, the transmit guard timer (R15). -/
structure Guard where
  run : Bool
  start : Time
  dur : Duration
deriving DecidableEq, Repr

/-- CAP, two bits (R16). -/
structure Cap where
  /-- bit 0, `rxEnable` -/
  rx : Bool
  /-- bit 1, `txEnable` -/
  tx : Bool
deriving DecidableEq, Repr

/-- The reasons of a refusal (60_exceptions.md R133). -/
inductive RefusalReason where
  /-- a reserved word presented as input -/
  | rf1
  /-- an output or phase word presented as input -/
  | rf2
  /-- SETUP while SETUP_DONE = 1 -/
  | rf3
  /-- TICK_BEGIN while SETUP_DONE = 0 -/
  | rf4
  /-- SETUP or TICK_BEGIN while PHASE is not PH_IDLE -/
  | rf5
  /-- STEP while PHASE = PH_IDLE -/
  | rf6
  /-- any input but RESET while REFUSED = 1 -/
  | rf7
  /-- a classifyBeginStatus parameter that breaks R58 -/
  | rf8
deriving DecidableEq, Repr

/-- The registers of 10_state.md, in the order of R28. -/
structure Regs where
  /-- LATCH (R7) -/
  latch : Latch
  /-- GATE, `interruptsEnabled` (R9) -/
  gate : Bool
  /-- IRQREG (R11) -/
  irqreg : IrqReg
  /-- SETUP_DONE (R20) -/
  setupDone : Bool
  /-- RXBUSY (R12) -/
  rxbusy : Bool
  /-- TXINFL (R13) -/
  txinfl : Bool
  /-- TXRES (R14) -/
  txres : Status
  /-- GUARD (R15) -/
  guard : Guard
  /-- CAP (R16) -/
  cap : Cap
  /-- FAULT (R18); its bits are those of R59 -/
  fault : BitVec 10
  /-- ACTIVE, the index of the active configuration slot (R19) -/
  active : BitVec 1
  /-- PHASE (R24) -/
  phase : Phase
  /-- REFUSED, the model's mark (R25) -/
  refused : Bool
  /-- the model's own: why REFUSED was set (the codes of R133) -/
  refusedFor : Option RefusalReason
deriving DecidableEq, Repr

/-- The environment (60_exceptions.md R140): the outbound queue, the clock, the answers to come, the operations to
come, and the commands the block has issued. None of it is a register of the block. -/
structure Env where
  /-- the outbound queue, head first (20_memory.md R44) -/
  outq : List Msg
  /-- the true time T in milliseconds (45_guard_timer.md R103) -/
  clock : Nat
  /-- the draws supplied and not yet asked for (30_encoding.md R61) -/
  draws : List Draw
  /-- how many free values have been taken where no draw was supplied -/
  free : Nat
  /-- the operations that come next, in order (60_exceptions.md R140) -/
  pending : List OpLine
  /-- every command issued so far with its result, in order (20_memory.md R40) -/
  out : List PortEvent
deriving DecidableEq, Repr

/-- The operation at the boundary: on which side its word stands, and the record beside it (30_encoding.md R56). -/
structure Port where
  side : Side
  operands : Operands
deriving DecidableEq, Repr

/-- The machine: one block with its own state (00_scope.md R3), its parameters and its environment. -/
structure State where
  regs : Regs
  params : Params
  env : Env
  port : Port
deriving DecidableEq, Repr

/-- The faults. There is none: no operation of the block raises an exception, halts it or transfers control
(60_exceptions.md R127, R132), so nothing can raise one, which is safe. -/
inductive Fault where
deriving DecidableEq, Repr

/-- The refusals of the model as such. What the spec calls a refusal (60_exceptions.md R133) is not one of them: it
is a next state with REFUSED = 1. -/
inductive Refusal where
  /-- An instruction that has no meaning yet, by its mnemonic. Raised by an arm of exec; safe. No arm raises it. -/
  | notModelled (mnemonic : String)
deriving DecidableEq, Repr

/-- The operand record of a machine at which no operation has been presented. -/
def Operands.initial : Operands :=
  { dir := .rx, line := .line0, msg := ⟨0⟩, payload := [], record := .txOk statusOk }

/-- classifyBeginStatus of the machine after reset: it maps STATUS_OK to OK and every failing status to a kind, as
30_encoding.md R58 demands, and to which kind nobody knows. -/
def Classifier.initial : Classifier :=
  { table := (Config.beginKinds.filter fun e => decide (e.1 ≠ statusOk)).map fun e => (e.1, e.2.code),
    rest := Config.otherKind }

/-- The parameters of the machine after reset: the defaults of 00_scope.md §4 where the table gives one, and a
constant nobody knows where it is OPEN. -/
def Params.initial : Params :=
  { slot0 := Config.slot0, slot1 := Config.slot1, syncWord := Config.syncWord, rxMode := Config.rxMode,
    rxBusyMask := Config.rxBusyMask, framePrefix := Config.defaultPrefix, classifier := Classifier.initial,
    rescanAfterTx := false, txInflightOnStartFailure := false }

/-- The machine right after reset: the registers at the values of 10_state.md R28, the parameters as
`Params.initial` has them, nothing issued, nothing presented. -/
def State.reset : State :=
  { regs :=
      { latch := ⟨false, false⟩, gate := true, irqreg := ⟨false, false⟩, setupDone := false, rxbusy := false,
        txinfl := false, txres := statusOk, guard := ⟨false, 0, 0⟩, cap := ⟨true, true⟩, fault := 0, active := 0,
        phase := .idle, refused := false, refusedFor := none },
    params := Params.initial,
    env := { outq := [], clock := 0, draws := [], free := 0, pending := [], out := [] },
    port := { side := .input, operands := Operands.initial } }

end Sys2Proof.Machine
end

