-- ==== Sys2Proof/Machine/Operands.lean ====
section
/-! DEFINITION. The values that travel beside the words (spec/30_encoding.md R56): picking a draw by its name (R61),
the active configuration (10_state.md R21), frames (20_memory.md R34), and the parameter classifyBeginStatus
(30_encoding.md R58). -/

namespace Sys2Proof.Machine

open Sys2Proof

/-- The first draw a name selects, and the other draws in their order: "A name that appears twice supplies values
in order" (R61). -/
def takeDraw {α : Type} (sel : Draw → Option α) : List Draw → Option (α × List Draw)
  | [] => none
  | d :: rest =>
    match sel d with
    | some a => some (a, rest)
    | none =>
      match takeDraw sel rest with
      | some (a, rest') => some (a, d :: rest')
      | none => none

/-- The draw `begin` (R61). -/
def asBegin (d : Draw) : Option Status := match d with | .beginStatus st => some st | _ => none
/-- The draw `set_crc` (R61). -/
def asSetCrc (d : Draw) : Option Status := match d with | .setCrc st => some st | _ => none
/-- The draw `set_frequency` (R61). -/
def asSetFrequency (d : Draw) : Option Status := match d with | .setFrequency st => some st | _ => none
/-- The draw `start_channel_scan` (R61). -/
def asStartChannelScan (d : Draw) : Option Status := match d with | .startChannelScan st => some st | _ => none
/-- The draw `start_receive` (R61). -/
def asStartReceive (d : Draw) : Option Status := match d with | .startReceive st => some st | _ => none
/-- The draw `read_data` (R61). -/
def asReadData (d : Draw) : Option (List Byte × Status) := match d with | .readData f st => some (f, st) | _ => none
/-- The draw `start_transmit` (R61). -/
def asStartTransmit (d : Draw) : Option Status := match d with | .startTransmit st => some st | _ => none
/-- The draw `get_rssi` (R61). -/
def asGetRssi (d : Draw) : Option Metric := match d with | .getRssi m => some m | _ => none
/-- The draw `get_snr` (R61). -/
def asGetSnr (d : Draw) : Option Metric := match d with | .getSnr m => some m | _ => none
/-- The draw `get_freq_error` (R61). -/
def asGetFreqError (d : Draw) : Option Metric := match d with | .getFreqError m => some m | _ => none
/-- The draw `get_modem_status` (R61). -/
def asGetModemStatus (d : Draw) : Option ModemStatus := match d with | .getModemStatus ms => some ms | _ => none
/-- The draw `now` (R61). -/
def asNow (d : Draw) : Option (Time × Nat) := match d with | .now t turns => some (t, turns) | _ => none

/-- The draw `outq_empty` (R61). -/
def asOutqEmpty (d : Draw) : Option Bool := match d with | .outqEmpty b => some b | _ => none
/-- The draw `outq_dequeue` (R61). -/
def asOutqDequeue (d : Draw) : Option Msg := match d with | .outqDequeue m => some m | _ => none

/-- The draws left when the state itself settles the answer of a name (20_memory.md R44): the first draw under the
name is used up when it gives that answer, and stays, never asked for, when it gives another. -/
def confirmed {α : Type} [DecidableEq α] (sel : Draw → Option α) (answer : α) (draws : List Draw) : List Draw :=
  match takeDraw sel draws with
  | some (a, rest) => if a = answer then rest else draws
  | none => draws

/-- CFG, the active configuration slot: `CFG_SLOT[ACTIVE]` (10_state.md R21). -/
def cfg (s : State) : Slot := if s.regs.active = 0 then s.params.slot0 else s.params.slot1

/-- Split-frequency operation: `CFG.rxFreq != CFG.txFreq` (R23, 43_frequency_switch.md R88). -/
def split (s : State) : Bool := decide ((cfg s).rxFreq ≠ (cfg s).txFreq)

/-- The frequency of a direction (R88). -/
def freqOf (dir : Dir) (s : State) : Freq :=
  match dir with
  | .rx => (cfg s).rxFreq
  | .tx => (cfg s).txFreq

/-- The bytes of FRAME_PREFIX, byte 0 first (20_memory.md R33). -/
def prefixBytes (p : FramePrefix) : List Byte := [p.b0, p.b1, p.b2]

/-- A received frame carries the prefix: `len(f) >= 3 and f[0..3) = FRAME_PREFIX` (R34). -/
def carriesPrefix (p : FramePrefix) (f : List Byte) : Bool :=
  decide (3 ≤ f.length) && decide (f.take 3 = prefixBytes p)

/-- The remaining payload `f[3..len(f))` (R34). -/
def payloadOf (f : List Byte) : List Byte := f.drop 3

/-- The frame sent for a message: `FRAME_PREFIX ++ ENCODE(m)` (R34). -/
def txFrame (s : State) (m : Msg) : List Byte := prefixBytes s.params.framePrefix ++ Config.encodeMsg m

/-- classifyBeginStatus(st), a 4-bit code (R58). -/
def classify (c : Classifier) (st : Status) : BitVec 4 :=
  match c.table.lookup st with
  | some k => k
  | none => if st = statusOk then 0 else c.rest.code

/-- classifyBeginStatus maps OK to OK and every failing status to a code from 1 to 8, as R58 demands. Only the
listed statuses can break it. -/
def classifierOk (c : Classifier) : Bool :=
  decide (classify c statusOk = 0) &&
    c.table.all fun e => decide (e.1 = statusOk) || (ErrKind.ofCode (classify c e.1)).isSome

end Sys2Proof.Machine
end

