-- ==== Sys2Proof/Machine/Flags.lean ====
section
/-! DEFINITION. The bits of the status registers and the views computed from them: FAULT (spec/30_encoding.md R59),
the capabilities a configuration error revokes (40_setup.md R64), the FSM view and OBS (10_state.md R26, R27). -/

namespace Sys2Proof.Machine

open Sys2Proof

/-- The FAULT bit of an ErrKind: bit k-1 (R59). -/
def faultBit (k : ErrKind) : BitVec 10 := 1#10 <<< (k.code.toNat - 1)

/-- F_CRC, bit 8 of FAULT (R59). -/
def faultCrc : BitVec 10 := 1#10 <<< 8

/-- F_SCAN, bit 9 of FAULT (R59). -/
def faultScan : BitVec 10 := 1#10 <<< 9

/-- REVOKE[k].rx: the kinds that clear CAP.rx (40_setup.md R64). -/
def revokesRx (k : ErrKind) : Bool :=
  match k with
  | .freq => true
  | .bw => true
  | .sf => true
  | .cr => true
  | .power => false
  | .gain => true
  | .preamble => true
  | .other => true

/-- REVOKE[k].tx: the kinds that clear CAP.tx (R64). -/
def revokesTx (k : ErrKind) : Bool :=
  match k with
  | .freq => true
  | .bw => true
  | .sf => true
  | .cr => true
  | .power => true
  | .gain => false
  | .preamble => true
  | .other => true

/-- Clearing the capabilities a kind revokes (R63, R64). -/
def revoke (k : ErrKind) (c : Cap) : Cap := { rx := c.rx && !revokesRx k, tx := c.tx && !revokesTx k }

/-- Either latch is set (41_scheduler_tick.md R73). -/
def Latch.any (l : Latch) : Bool := l.opDone || l.pre

/-- LATCH as its two bits. -/
def Latch.bits (l : Latch) : BitVec 2 := BitVec.ofBool l.pre ++ BitVec.ofBool l.opDone

/-- IRQREG as its two bits. -/
def IrqReg.bits (r : IrqReg) : BitVec 2 := BitVec.ofBool r.line1 ++ BitVec.ofBool r.line0

/-- CAP as its two bits. -/
def Cap.bits (c : Cap) : BitVec 2 := BitVec.ofBool c.tx ++ BitVec.ofBool c.rx

/-- The five named states of 10_state.md R26. -/
inductive Fsm where
  | idleScanning
  | preambleDetected
  | receivingSingle
  | transmitting
  | guardWait
deriving DecidableEq, Repr

/-- The 3-bit code of a named state (R26). -/
def Fsm.code (f : Fsm) : BitVec 3 :=
  match f with
  | .idleScanning => 0b000
  | .preambleDetected => 0b001
  | .receivingSingle => 0b010
  | .transmitting => 0b011
  | .guardWait => 0b100

/-- The FSM view: the first line of R26 that matches. -/
def fsm (r : Regs) : Fsm :=
  if r.phase = .preambleArm ∧ r.latch.pre = true then .preambleDetected
  else if r.txinfl then .transmitting
  else if r.rxbusy then .receivingSingle
  else if r.guard.run then .guardWait
  else .idleScanning

/-- The observation word OBS, bit 15 first (R27). -/
def obs (r : Regs) : BitVec 16 :=
  0b00#2 ++ (fsm r).code ++ r.irqreg.bits ++ BitVec.ofBool r.setupDone ++ r.cap.bits ++
    BitVec.ofBool r.guard.run ++ BitVec.ofBool r.txinfl ++ BitVec.ofBool r.rxbusy ++ BitVec.ofBool r.gate ++
    r.latch.bits

end Sys2Proof.Machine
end

