-- ==== Sys2Proof/Machine/Ops.lean ====
section
/-! DEFINITION. The named operations over the state: register writes, the port record, draws from the environment,
the time input, refusal (spec/60_exceptions.md R133) and the legality of an input (30_encoding.md R53), the
interrupt handlers' latch writes (44_interrupt_latch_sync.md), and the entry to and the exit from the interrupt
branch (60_exceptions.md R136, R137). -/

namespace Sys2Proof.Machine

open Sys2Proof

/-- Writing registers: only `regs` changes. -/
def State.withRegs (f : Regs → Regs) (s : State) : State := { s with regs := f s.regs }

/-- Writing PHASE (10_state.md R24). -/
def setPhase (p : Phase) (s : State) : State := s.withRegs fun r => { r with phase := p }

/-- A command goes out, after every command before it (20_memory.md R40). -/
def emit (e : PortEvent) (s : State) : State := { s with env := { s.env with out := s.env.out ++ [e] } }

/-- A draw (00_scope.md §5) from the draws at hand, `k` free values having been taken: the first value supplied under
the name, and a free value where none is. -/
def drawFrom {α : Type} (sel : Draw → Option α) (free : Nat → α) (draws : List Draw) (k : Nat) : α × List Draw × Nat :=
  match takeDraw sel draws with
  | some (a, rest) => (a, rest, k)
  | none => (free k, draws, k + 1)

/-- A draw at a state: only the draws at hand and the count of free values change. -/
def State.draw {α : Type} (sel : Draw → Option α) (free : Nat → α) (s : State) : α × State :=
  let d := drawFrom sel free s.env.draws s.env.free
  (d.1, { s with env := { s.env with draws := d.2.1, free := d.2.2 } })

/-- An answer the state itself settles (20_memory.md R44): only the draws at hand change, by the draw that gives that
answer. -/
def State.confirm {α : Type} [DecidableEq α] (sel : Draw → Option α) (answer : α) (s : State) : State :=
  { s with env := { s.env with draws := confirmed sel answer s.env.draws } }

/-- The earliest true time from `clock` on at which the 32-bit sample reads `sample`, and `turns` whole turns of the
counter later (45_guard_timer.md R103). -/
def advance (clock : Nat) (sample : Time) (turns : Nat) : Nat :=
  clock + (sample - BitVec.ofNat 32 clock).toNat + 2 ^ 32 * turns

/-- Env.now(): a sample, and the true time it was taken at (R103). -/
def now (s : State) : Time × State :=
  let d := s.draw asNow Config.freeTime
  (d.1.1, { d.2 with env := { d.2.env with clock := advance s.env.clock d.1.1 d.1.2 } })

/-- Every register at its value of 10_state.md R28. -/
def resetRegs : Regs :=
  { latch := ⟨false, false⟩, gate := true, irqreg := ⟨false, false⟩, setupDone := false, rxbusy := false,
    txinfl := false, txres := statusOk, guard := ⟨false, 0, 0⟩, cap := ⟨true, true⟩, fault := 0, active := 0,
    phase := .idle, refused := false, refusedFor := none }

/-- refuse(reason) (R133): REFUSED <- 1 and nothing else; the model keeps the reason of the first refusal. -/
def refuse (why : RefusalReason) (s : State) : State :=
  s.withRegs fun r =>
    { r with refused := true, refusedFor := if r.refused then r.refusedFor else some why }

/-- An operation that is refused for a reason, or else has its effect. -/
def unlessRefused (why : Option RefusalReason) (effect : State → State) (s : State) :
    Host.Outcome State Fault Refusal :=
  .next
    (match why with
    | some r => refuse r s
    | none => effect s)

/-- Why SETUP is refused, if it is (30_encoding.md R53, R58; 60_exceptions.md R133). -/
def setupRefusal (s : State) : Option RefusalReason :=
  if s.regs.refused then some .rf7
  else if s.regs.setupDone then some .rf3
  else if s.regs.phase ≠ .idle then some .rf5
  else if classifierOk s.params.classifier then none
  else some .rf8

/-- Why TICK_BEGIN is refused, if it is (R53, R133). -/
def tickRefusal (s : State) : Option RefusalReason :=
  if s.regs.refused then some .rf7
  else if !s.regs.setupDone then some .rf4
  else if s.regs.phase ≠ .idle then some .rf5
  else none

/-- Why STEP is refused, if it is (R53, R133). -/
def stepRefusal (s : State) : Option RefusalReason :=
  if s.regs.refused then some .rf7
  else if s.regs.phase = .idle then some .rf6
  else none

/-- Why an interrupt word is refused, if it is (R53, R133). -/
def irqRefusal (s : State) : Option RefusalReason := if s.regs.refused then some .rf7 else none

/-- Why an output word is refused, if it is: as an input it has no meaning (R53), and it goes out only when the block
issues it (R46). -/
def commandRefusal (s : State) : Option RefusalReason :=
  if s.regs.refused then some .rf7
  else
    match s.port.side with
    | .input => some .rf2
    | .issued => none

/-- Why a phase word is refused, if it is: as an input it has no meaning (R53), and the sequencer runs only the
phase that PHASE holds (R46, 10_state.md R24). -/
def phaseRefusal (p : Phase) (s : State) : Option RefusalReason :=
  if s.regs.refused then some .rf7
  else
    match s.port.side with
    | .input => some .rf2
    | .issued => if s.regs.phase = p then none else some .rf2

/-- The handler of a line has been registered (10_state.md R11). -/
def lineRegistered (l : IrqLine) (r : Regs) : Bool :=
  match l with
  | .line0 => r.irqreg.line0
  | .line1 => r.irqreg.line1

/-- Setting the latch of a line (R7). -/
def setLatch (l : IrqLine) (x : Latch) : Latch :=
  match l with
  | .line0 => { x with opDone := true }
  | .line1 => { x with pre := true }

/-- An interrupt handler (44_interrupt_latch_sync.md R94, R95): it sets its latch when its line is registered and
the gate is open, and has no effect at all otherwise. -/
def handler (l : IrqLine) (s : State) : State :=
  if lineRegistered l s.regs && s.regs.gate then s.withRegs fun r => { r with latch := setLatch l r.latch } else s

/-- Registering the handler of a line (46_external_ports.md R120). -/
def registerLine (l : IrqLine) (x : IrqReg) : IrqReg :=
  match l with
  | .line0 => { x with line0 := true }
  | .line1 => { x with line1 := true }

/-- Entering the interrupt branch (60_exceptions.md R136): nothing is saved, the mask closes, and TXINFL chooses the
phase. -/
def enterBranch (s : State) : State :=
  s.withRegs fun r => { r with gate := false, phase := if r.txinfl then .txComplete else .rxConsume }

/-- The first step of leaving the interrupt branch (R137): both latches are cleared. -/
def clearLatches (s : State) : State :=
  s.withRegs fun r => { r with latch := ⟨false, false⟩, phase := .gateOn }

/-- The second step of leaving the interrupt branch (R137): the mask opens, unconditionally; nothing is restored. -/
def leaveBranch (s : State) : State := s.withRegs fun r => { r with gate := true, phase := .idle }

end Sys2Proof.Machine
end

