-- ==== Sys2Proof/Machine/Ports.lean ====
section
/-! DEFINITION. The driver commands and the collaborator operations (spec/46_external_ports.md): what the block
sends, what it receives, and what changes in the block. Each meaning `exec…` is the command with the record beside
its word; the phases and SETUP issue the same commands inside their own step (R110). -/

namespace Sys2Proof.Machine

open Sys2Proof

/-- A command that a driver call answers with a drawn value (R110): the answer and the state in which the command
stands recorded with it. -/
def driverCall {α : Type} (sel : Draw → Option α) (free : Nat → α) (event : α → PortEvent) (s : State) : α × State :=
  let d := s.draw sel free
  (d.1, emit (event d.1) d.2)

/-- DRV_BEGIN (R111). -/
def drvBegin (s : State) : Status × State :=
  let c := cfg s
  driverCall asBegin Config.freeStatus
    (fun st => .drvBegin c.rxFreq c.bandwidth c.spreadingFactor c.codingRate s.params.syncWord c.txPower c.preambleLen
      c.rxGain st) s

/-- DRV_SET_CRC, always with 1 (R112, 40_setup.md R65). -/
def drvSetCrc (s : State) : Status × State :=
  driverCall asSetCrc Config.freeStatus (fun st => .drvSetCrc true st) s

/-- DRV_SET_FREQUENCY with the frequency of a direction (R113). -/
def drvSetFrequency (dir : Dir) (s : State) : Status × State :=
  driverCall asSetFrequency Config.freeStatus (fun st => .drvSetFrequency (freqOf dir s) st) s

/-- DRV_START_CHANNEL_SCAN (R114). -/
def drvStartChannelScan (s : State) : Status × State :=
  driverCall asStartChannelScan Config.freeStatus (fun st => .drvStartChannelScan st) s

/-- DRV_START_RECEIVE with RX_MODE_SINGLE (R115). -/
def drvStartReceive (s : State) : Status × State :=
  driverCall asStartReceive Config.freeStatus (fun st => .drvStartReceive s.params.rxMode st) s

/-- DRV_READ_DATA (R116). -/
def drvReadData (s : State) : (List Byte × Status) × State :=
  driverCall asReadData Config.freeReadData (fun a => .drvReadData a.1 a.2) s

/-- DRV_START_TRANSMIT (R117). -/
def drvStartTransmit (frame : List Byte) (s : State) : Status × State :=
  driverCall asStartTransmit Config.freeStatus (fun st => .drvStartTransmit frame st) s

/-- DRV_GET_RSSI (R118). -/
def drvGetRssi (s : State) : Metric × State :=
  driverCall asGetRssi Config.freeMetric (fun m => .drvGetRssi m) s

/-- DRV_GET_SNR (R118). -/
def drvGetSnr (s : State) : Metric × State :=
  driverCall asGetSnr Config.freeMetric (fun m => .drvGetSnr m) s

/-- DRV_GET_FREQ_ERROR (R118). -/
def drvGetFreqError (s : State) : Metric × State :=
  driverCall asGetFreqError Config.freeMetric (fun m => .drvGetFreqError m) s

/-- DRV_GET_MODEM_STATUS (R119). -/
def drvGetModemStatus (s : State) : ModemStatus × State :=
  driverCall asGetModemStatus Config.freeModemStatus (fun ms => .drvGetModemStatus ms) s

/-- DRV_ATTACH_IRQ: no result; the block sets the line's IRQREG bit (R120). -/
def drvAttachIrq (l : IrqLine) (s : State) : State :=
  (emit (.drvAttachIrq l) s).withRegs fun r => { r with irqreg := registerLine l r.irqreg }

/-- OUTQ_EMPTY: true iff the outbound queue is empty at that moment (R121). -/
def outqEmpty (s : State) : Bool × State :=
  (s.env.outq.isEmpty, emit (.outqEmpty s.env.outq.isEmpty) (s.confirm asOutqEmpty s.env.outq.isEmpty))

/-- OUTQ_DEQUEUE: the head of the queue, which the queue loses (R122). From an empty queue, which the rule excludes,
any message comes and the queue stays empty (notes/assumptions/8.md). -/
def outqDequeue (s : State) : Msg × State :=
  match s.env.outq with
  | m :: rest =>
    (m, emit (.outqDequeue m) (State.confirm asOutqDequeue m { s with env := { s.env with outq := rest } }))
  | [] => driverCall asOutqDequeue Config.freeMsg (fun m => .outqDequeue m) s

/-- INQ_PUSH of the message a payload decodes to; a push always succeeds (R123). -/
def inqPush (payload : List Byte) (s : State) : State := emit (.inqPush (Config.decodeMsg payload)) s

/-- DISPLAY_SHOW of a message's summary (R124). -/
def displayShow (m : Msg) (s : State) : State := emit (.displayShow (Config.summary m)) s

/-- LOG_EMIT of a record (R125). -/
def logEmit (r : LogRecord) (s : State) : State := emit (.logEmit r) s

/-- DRV_BEGIN issued by the block. -/
def execDrvBegin (s : State) : Host.Outcome State Fault Refusal :=
  unlessRefused (commandRefusal s) (fun s => (drvBegin s).2) s

/-- DRV_SET_CRC issued by the block. -/
def execDrvSetCrc (s : State) : Host.Outcome State Fault Refusal :=
  unlessRefused (commandRefusal s) (fun s => (drvSetCrc s).2) s

/-- DRV_SET_FREQUENCY issued by the block, for the direction beside the word. -/
def execDrvSetFrequency (s : State) : Host.Outcome State Fault Refusal :=
  unlessRefused (commandRefusal s) (fun s => (drvSetFrequency s.port.operands.dir s).2) s

/-- DRV_START_CHANNEL_SCAN issued by the block. -/
def execDrvStartChannelScan (s : State) : Host.Outcome State Fault Refusal :=
  unlessRefused (commandRefusal s) (fun s => (drvStartChannelScan s).2) s

/-- DRV_START_RECEIVE issued by the block. -/
def execDrvStartReceive (s : State) : Host.Outcome State Fault Refusal :=
  unlessRefused (commandRefusal s) (fun s => (drvStartReceive s).2) s

/-- DRV_READ_DATA issued by the block. -/
def execDrvReadData (s : State) : Host.Outcome State Fault Refusal :=
  unlessRefused (commandRefusal s) (fun s => (drvReadData s).2) s

/-- DRV_START_TRANSMIT issued by the block, with the frame of the message beside the word. -/
def execDrvStartTransmit (s : State) : Host.Outcome State Fault Refusal :=
  unlessRefused (commandRefusal s) (fun s => (drvStartTransmit (txFrame s s.port.operands.msg) s).2) s

/-- DRV_GET_RSSI issued by the block. -/
def execDrvGetRssi (s : State) : Host.Outcome State Fault Refusal :=
  unlessRefused (commandRefusal s) (fun s => (drvGetRssi s).2) s

/-- DRV_GET_SNR issued by the block. -/
def execDrvGetSnr (s : State) : Host.Outcome State Fault Refusal :=
  unlessRefused (commandRefusal s) (fun s => (drvGetSnr s).2) s

/-- DRV_GET_FREQ_ERROR issued by the block. -/
def execDrvGetFreqError (s : State) : Host.Outcome State Fault Refusal :=
  unlessRefused (commandRefusal s) (fun s => (drvGetFreqError s).2) s

/-- DRV_GET_MODEM_STATUS issued by the block. -/
def execDrvGetModemStatus (s : State) : Host.Outcome State Fault Refusal :=
  unlessRefused (commandRefusal s) (fun s => (drvGetModemStatus s).2) s

/-- DRV_ATTACH_IRQ issued by the block, for the line beside the word. -/
def execDrvAttachIrq (s : State) : Host.Outcome State Fault Refusal :=
  unlessRefused (commandRefusal s) (fun s => drvAttachIrq s.port.operands.line s) s

/-- OUTQ_EMPTY issued by the block. -/
def execOutqEmpty (s : State) : Host.Outcome State Fault Refusal :=
  unlessRefused (commandRefusal s) (fun s => (outqEmpty s).2) s

/-- OUTQ_DEQUEUE issued by the block. -/
def execOutqDequeue (s : State) : Host.Outcome State Fault Refusal :=
  unlessRefused (commandRefusal s) (fun s => (outqDequeue s).2) s

/-- INQ_PUSH issued by the block, of the payload beside the word. -/
def execInqPush (s : State) : Host.Outcome State Fault Refusal :=
  unlessRefused (commandRefusal s) (fun s => inqPush s.port.operands.payload s) s

/-- DISPLAY_SHOW issued by the block, of the message beside the word. -/
def execDisplayShow (s : State) : Host.Outcome State Fault Refusal :=
  unlessRefused (commandRefusal s) (fun s => displayShow s.port.operands.msg s) s

/-- LOG_EMIT issued by the block, of the record beside the word. -/
def execLogEmit (s : State) : Host.Outcome State Fault Refusal :=
  unlessRefused (commandRefusal s) (fun s => logEmit s.port.operands.record s) s

end Sys2Proof.Machine
end

