-- ==== Sys2Proof/Machine/Frequency.lean ====
section
/-! DEFINITION. The frequency switch controller (spec/43_frequency_switch.md): sub-procedures without a word of
their own, each run inside the phase that calls it. They write no register. -/

namespace Sys2Proof.Machine

open Sys2Proof

/-- FREQ_SWITCH(dir) (R88). -/
def freqSwitch (dir : Dir) (s : State) : Status × State :=
  if split s then drvSetFrequency dir s else (statusOk, s)

/-- A call that goes through the frequency switch first: the first failing status is returned, and the call is not
issued after it (R89, R90, R91). -/
def afterSwitch (dir : Dir) (call : State → Status × State) (s : State) : Status × State :=
  let d := freqSwitch dir s
  if d.1 = statusOk then call d.2 else d

/-- RX_ARM() (R89). -/
def rxArm (s : State) : Status × State := afterSwitch .rx drvStartReceive s

/-- SCAN_ARM() (R90). -/
def scanArm (s : State) : Status × State := afterSwitch .rx drvStartChannelScan s

/-- TX_START(frame) (R91). -/
def txStart (frame : List Byte) (s : State) : Status × State := afterSwitch .tx (drvStartTransmit frame) s

end Sys2Proof.Machine
end

