-- ==== Sys2Proof/Machine/GuardTimer.lean ====
section
/-! DEFINITION. The transmit guard timer (spec/45_guard_timer.md). -/

namespace Sys2Proof.Machine

open Sys2Proof

/-- The guard duration `2 * CFG.preambleDurationMs`, exact in 33 bits (R105). -/
def guardDuration (pd : BitVec 32) : Duration := 2#33 * pd.setWidth 33

/-- GUARD_START(t, d) (R104). -/
def guardStart (t : Time) (d : Duration) : Guard := { run := true, start := t, dur := d }

/-- The timer has run for its duration at the sample t: `zext_33(t -_32 GUARD.start) >=u GUARD.dur` (R106). -/
def guardExpired (t : Time) (g : Guard) : Bool := decide (g.dur ≤ (t - g.start).setWidth 33)

/-- What GUARD_QUERY(t) leaves in GUARD (R106): expiry is latched, and nothing else is written. -/
def guardQuery (t : Time) (g : Guard) : Guard := if g.run && guardExpired t g then { g with run := false } else g

/-- What GUARD_QUERY(t) returns: true means "elapsed" (R106). -/
def guardElapsed (t : Time) (g : Guard) : Bool := !(guardQuery t g).run

end Sys2Proof.Machine
end

