-- ==== Sys2Proof/Machine/Phases.lean ====
section
/-! DEFINITION. The phases of a tick (spec/41_scheduler_tick.md, 42_scheduler_idle_branch.md). Each phase is one
indivisible step and ends by writing PHASE (R71). -/

namespace Sys2Proof.Machine

open Sys2Proof

/-- PH_SAMPLE (R73). -/
def phSample (s : State) : State := setPhase (if s.regs.latch.any then .gateOff else .guardCheck) s

/-- PH_GATE_OFF (R74). -/
def phGateOff (s : State) : State := enterBranch s

/-- The log record of a transmit completion, chosen by TXRES (R75). -/
def completionRecord (txres : Status) : LogRecord := if txres = statusOk then .txOk txres else .txFail txres

/-- PH_TX_COMPLETE (R75): log, clear TXINFL and both latches, start the guard. -/
def phTxComplete (s : State) : State :=
  let d := now (logEmit (completionRecord s.regs.txres) s)
  d.2.withRegs fun r =>
    { r with
      txinfl := false, latch := ⟨false, false⟩, guard := guardStart d.1 (guardDuration (cfg s).preambleDurationMs),
      phase := if s.params.rescanAfterTx then .scanRearm else .latchClear }

/-- A frame without the prefix (R76): the metrics are read in the order RSSI, SNR, frequency error, and logged with
the frame. -/
def logUnrecognized (frame : List Byte) (s : State) : State :=
  let a := drvGetRssi s
  let b := drvGetSnr a.2
  let c := drvGetFreqError b.2
  logEmit (.rxUnrecognized a.1 b.1 c.1 frame) c.2

/-- A frame with the prefix (R76): its payload is decoded, pushed and shown. -/
def acceptFrame (frame : List Byte) (s : State) : State :=
  displayShow (Config.decodeMsg (payloadOf frame)) (inqPush (payloadOf frame) s)

/-- Consuming a completed receive (R76). -/
def consumeFrame (s : State) : State :=
  let d := drvReadData s
  if d.1.2 ≠ statusOk then logEmit (.rxReadFail d.1.2) d.2
  else if carriesPrefix s.params.framePrefix d.1.1 then acceptFrame d.1.1 d.2
  else logUnrecognized d.1.1 d.2

/-- PH_RX_CONSUME (R76). -/
def phRxConsume (s : State) : State :=
  let t := if s.regs.rxbusy then (consumeFrame s).withRegs fun r => { r with rxbusy := false } else s
  setPhase .preambleArm t

/-- Arming a single-packet receive on a preamble (R77). -/
def armReceive (s : State) : State :=
  let d := rxArm s
  if d.1 = statusOk then d.2.withRegs fun r => { r with rxbusy := true } else logEmit (.rxArmFail d.1) d.2

/-- PH_PREAMBLE_ARM (R77). -/
def phPreambleArm (s : State) : State := setPhase .scanRearm (if s.regs.latch.pre then armReceive s else s)

/-- Re-arming the channel scan, best effort (R78). -/
def rearmScan (s : State) : State :=
  let d := scanArm s
  if d.1 = statusOk then d.2 else logEmit (.scanFail d.1) d.2

/-- PH_SCAN_REARM (R78). -/
def phScanRearm (s : State) : State :=
  setPhase .latchClear (if s.regs.cap.rx && !s.regs.rxbusy then rearmScan s else s)

/-- PH_LATCH_CLEAR (R79). -/
def phLatchClear (s : State) : State := clearLatches s

/-- PH_GATE_ON (R80). -/
def phGateOn (s : State) : State := leaveBranch s

/-- PH_GUARD_CHECK (R83): the guard is queried first, whatever the capability. -/
def phGuardCheck (s : State) : State :=
  let d := now s
  d.2.withRegs fun r =>
    { r with
      guard := guardQuery d.1 r.guard,
      phase := if guardElapsed d.1 r.guard && r.cap.tx && !r.txinfl then .txAttempt else .idle }

/-- The deferral test of R84: the modem status is read only when the configuration is not split, and a bit inside
RX_BUSY_MASK defers. -/
def receiveInProgress (s : State) : Bool × State :=
  if split s then (false, s)
  else
    let d := drvGetModemStatus s
    (decide (d.1 &&& s.params.rxBusyMask ≠ 0), d.2)

/-- What a transmit start leaves behind (R84): a success is in flight; a failure ends the transmit capability for
good, and the parameter decides whether it counts as in flight. -/
def transmitStarted (st : Status) (s : State) : State :=
  if st = statusOk then s.withRegs fun r => { r with txinfl := true, txres := st }
  else
    let t := s.withRegs fun r => { r with cap := { r.cap with tx := false } }
    let u := if s.params.txInflightOnStartFailure then t.withRegs fun r => { r with txinfl := true, txres := st } else t
    logEmit (.txStartFail st) u

/-- Taking exactly one message off the queue and starting its transmission (R84). -/
def transmitOne (s : State) : State :=
  let m := outqDequeue s
  let d := txStart (txFrame s m.1) m.2
  transmitStarted d.1 d.2

/-- PH_TX_ATTEMPT (R84). -/
def phTxAttempt (s : State) : State :=
  let e := outqEmpty s
  if e.1 then setPhase .idle e.2
  else
    let b := receiveInProgress e.2
    if b.1 then setPhase .idle b.2 else setPhase .idle (transmitOne b.2)

/-- The rule of the phase that PHASE holds (R71). PH_IDLE has none: no tick is in progress. -/
def runPhase (s : State) : State :=
  match s.regs.phase with
  | .idle => s
  | .sample => phSample s
  | .gateOff => phGateOff s
  | .txComplete => phTxComplete s
  | .rxConsume => phRxConsume s
  | .preambleArm => phPreambleArm s
  | .scanRearm => phScanRearm s
  | .latchClear => phLatchClear s
  | .gateOn => phGateOn s
  | .guardCheck => phGuardCheck s
  | .txAttempt => phTxAttempt s

/-- PH_IDLE as the sequencer's phase: no tick is in progress, and nothing happens (10_state.md R24). -/
def execPhIdle (s : State) : Host.Outcome State Fault Refusal :=
  unlessRefused (phaseRefusal .idle s) (fun s => s) s

/-- PH_SAMPLE as the sequencer's phase. -/
def execPhSample (s : State) : Host.Outcome State Fault Refusal :=
  unlessRefused (phaseRefusal .sample s) phSample s

/-- PH_GATE_OFF as the sequencer's phase. -/
def execPhGateOff (s : State) : Host.Outcome State Fault Refusal :=
  unlessRefused (phaseRefusal .gateOff s) phGateOff s

/-- PH_TX_COMPLETE as the sequencer's phase. -/
def execPhTxComplete (s : State) : Host.Outcome State Fault Refusal :=
  unlessRefused (phaseRefusal .txComplete s) phTxComplete s

/-- PH_RX_CONSUME as the sequencer's phase. -/
def execPhRxConsume (s : State) : Host.Outcome State Fault Refusal :=
  unlessRefused (phaseRefusal .rxConsume s) phRxConsume s

/-- PH_PREAMBLE_ARM as the sequencer's phase. -/
def execPhPreambleArm (s : State) : Host.Outcome State Fault Refusal :=
  unlessRefused (phaseRefusal .preambleArm s) phPreambleArm s

/-- PH_SCAN_REARM as the sequencer's phase. -/
def execPhScanRearm (s : State) : Host.Outcome State Fault Refusal :=
  unlessRefused (phaseRefusal .scanRearm s) phScanRearm s

/-- PH_LATCH_CLEAR as the sequencer's phase. -/
def execPhLatchClear (s : State) : Host.Outcome State Fault Refusal :=
  unlessRefused (phaseRefusal .latchClear s) phLatchClear s

/-- PH_GATE_ON as the sequencer's phase. -/
def execPhGateOn (s : State) : Host.Outcome State Fault Refusal :=
  unlessRefused (phaseRefusal .gateOn s) phGateOn s

/-- PH_GUARD_CHECK as the sequencer's phase. -/
def execPhGuardCheck (s : State) : Host.Outcome State Fault Refusal :=
  unlessRefused (phaseRefusal .guardCheck s) phGuardCheck s

/-- PH_TX_ATTEMPT as the sequencer's phase. -/
def execPhTxAttempt (s : State) : Host.Outcome State Fault Refusal :=
  unlessRefused (phaseRefusal .txAttempt s) phTxAttempt s

end Sys2Proof.Machine
end

