-- ==== Sys2Proof/Machine/Inputs.lean ====
section
/-! DEFINITION. The input events: RESET (spec/70_reset_and_hazards.md R141), SETUP (40_setup.md R63), TICK_BEGIN and
STEP (41_scheduler_tick.md R70, R71), IRQ_DONE and IRQ_PREAMBLE (44_interrupt_latch_sync.md R94, R95). -/

namespace Sys2Proof.Machine

open Sys2Proof

/-- RESET (R141): every register at its reset value; no command goes out and the queue is not touched. -/
def execReset (s : State) : Host.Outcome State Fault Refusal := .next (s.withRegs fun _ => resetRegs)

/-- A failing begin (R63): the capabilities of its kind are revoked, its FAULT bit is set, and it is logged. A code
that names no failing kind cannot occur here, for SETUP is refused then (60_exceptions.md R133, RF8). -/
def beginFailed (st : Status) (s : State) : State :=
  match ErrKind.ofCode (classify s.params.classifier st) with
  | some k =>
    logEmit (.cfgError k st) (s.withRegs fun r => { r with cap := revoke k r.cap, fault := r.fault ||| faultBit k })
  | none => s

/-- The begin step of SETUP (R63). -/
def setupBegin (s : State) : State :=
  let d := drvBegin s
  if d.1 = statusOk then d.2 else beginFailed d.1 d.2

/-- The CRC step of SETUP (R63, R65). -/
def setupCrc (s : State) : State :=
  let d := drvSetCrc s
  if d.1 = statusOk then d.2
  else
    logEmit (.crcError d.1)
      (d.2.withRegs fun r => { r with cap := ⟨false, false⟩, fault := r.fault ||| faultCrc })

/-- The registration step of SETUP: line 0, then line 1 (R63). -/
def setupAttach (s : State) : State := drvAttachIrq .line1 (drvAttachIrq .line0 s)

/-- The scan step of SETUP (R63, R66). -/
def setupScan (s : State) : State :=
  if s.regs.cap.rx then
    let d := scanArm s
    if d.1 = statusOk then d.2
    else
      logEmit (.setupScanFail d.1)
        (d.2.withRegs fun r => { r with cap := { r.cap with rx := false }, fault := r.fault ||| faultScan })
  else s

/-- The last steps of SETUP (R63). -/
def setupFinish (s : State) : State := s.withRegs fun r => { r with gate := true, setupDone := true }

/-- The steps of SETUP in order, one indivisible step (R63, R68). -/
def setupBody (s : State) : State := setupFinish (setupScan (setupAttach (setupCrc (setupBegin s))))

/-- SETUP (R63). -/
def execSetup (s : State) : Host.Outcome State Fault Refusal := unlessRefused (setupRefusal s) setupBody s

/-- TICK_BEGIN (R70). -/
def execTickBegin (s : State) : Host.Outcome State Fault Refusal :=
  unlessRefused (tickRefusal s) (setPhase .sample) s

/-- STEP: the rule of the phase that PHASE holds (R71). -/
def execStep (s : State) : Host.Outcome State Fault Refusal := unlessRefused (stepRefusal s) runPhase s

/-- IRQ_DONE (R94). -/
def execIrqDone (s : State) : Host.Outcome State Fault Refusal := unlessRefused (irqRefusal s) (handler .line0) s

/-- IRQ_PREAMBLE (R95). -/
def execIrqPreamble (s : State) : Host.Outcome State Fault Refusal := unlessRefused (irqRefusal s) (handler .line1) s

end Sys2Proof.Machine
end

