-- ==== Sys2Proof/Machine/Dispatch.lean ====
section
/-! DEFINITION. The meaning of every operation of spec/opcode_table.json, one arm each, in the table's order. -/

namespace Sys2Proof.Machine

open Sys2Proof

/-- The meaning of an operation whose word stands at the boundary. -/
def exec (i : Instr) (s : State) : Host.Outcome State Fault Refusal :=
  match i with
  | .reset => Sys2Proof.Machine.execReset s
  | .setup => Sys2Proof.Machine.execSetup s
  | .tickBegin => Sys2Proof.Machine.execTickBegin s
  | .step => Sys2Proof.Machine.execStep s
  | .irqDone => Sys2Proof.Machine.execIrqDone s
  | .irqPreamble => Sys2Proof.Machine.execIrqPreamble s
  | .drvBegin => Sys2Proof.Machine.execDrvBegin s
  | .drvSetCrc => Sys2Proof.Machine.execDrvSetCrc s
  | .drvSetFrequency => Sys2Proof.Machine.execDrvSetFrequency s
  | .drvStartChannelScan => Sys2Proof.Machine.execDrvStartChannelScan s
  | .drvStartReceive => Sys2Proof.Machine.execDrvStartReceive s
  | .drvReadData => Sys2Proof.Machine.execDrvReadData s
  | .drvStartTransmit => Sys2Proof.Machine.execDrvStartTransmit s
  | .drvGetRssi => Sys2Proof.Machine.execDrvGetRssi s
  | .drvGetSnr => Sys2Proof.Machine.execDrvGetSnr s
  | .drvGetFreqError => Sys2Proof.Machine.execDrvGetFreqError s
  | .drvGetModemStatus => Sys2Proof.Machine.execDrvGetModemStatus s
  | .drvAttachIrq => Sys2Proof.Machine.execDrvAttachIrq s
  | .outqEmpty => Sys2Proof.Machine.execOutqEmpty s
  | .outqDequeue => Sys2Proof.Machine.execOutqDequeue s
  | .inqPush => Sys2Proof.Machine.execInqPush s
  | .displayShow => Sys2Proof.Machine.execDisplayShow s
  | .logEmit => Sys2Proof.Machine.execLogEmit s
  | .phIdle => Sys2Proof.Machine.execPhIdle s
  | .phSample => Sys2Proof.Machine.execPhSample s
  | .phGateOff => Sys2Proof.Machine.execPhGateOff s
  | .phTxComplete => Sys2Proof.Machine.execPhTxComplete s
  | .phRxConsume => Sys2Proof.Machine.execPhRxConsume s
  | .phPreambleArm => Sys2Proof.Machine.execPhPreambleArm s
  | .phScanRearm => Sys2Proof.Machine.execPhScanRearm s
  | .phLatchClear => Sys2Proof.Machine.execPhLatchClear s
  | .phGateOn => Sys2Proof.Machine.execPhGateOn s
  | .phGuardCheck => Sys2Proof.Machine.execPhGuardCheck s
  | .phTxAttempt => Sys2Proof.Machine.execPhTxAttempt s

end Sys2Proof.Machine
end

