-- ==== Sys2Proof/Machine/Boundary.lean ====
section
/-! DEFINITION. Taking the next operation at the block's boundary (spec/60_exceptions.md R140, 30_encoding.md R56,
R61), and placing one there. -/

namespace Sys2Proof.Machine

open Sys2Proof

/-- The line `l` comes to the boundary, and `rest` is what comes after it: producers append its messages to the
outbound queue (20_memory.md R44), its draws replace those of the line before unless it goes on with them (R61, R62),
and its word stands on its side with its record beside it (R56). -/
def takeLine (l : OpLine) (rest : List OpLine) (s : State) : State :=
  { s with
    env :=
      { s.env with
        outq := s.env.outq ++ l.arrivals
        draws := l.draws.getD s.env.draws
        pending := rest }
    port := { side := l.side, operands := l.operands } }

/-- The line that brings a word to the side on which its class stands (R46), with no arrivals and the draws at
hand. -/
def lineOf (w : OpWord) (s : State) : OpLine :=
  { side := (wordClass w).side, word := w, operands := s.port.operands, arrivals := [], draws := none }

/-- The state in which a word comes next; for a phase word PHASE holds that phase, for the sequencer runs no other
(10_state.md R24). -/
def placeWord (w : OpWord) (s : State) : State :=
  let t := { s with env := { s.env with pending := lineOf w s :: s.env.pending } }
  match decode w with
  | .op i =>
    match i.phase? with
    | some p => setPhase p t
    | none => t
  | .reserved => t

end Sys2Proof.Machine
end

