-- ==== Sys2Proof/Machine/Step.lean ====
section
/-! DEFINITION. One step of the machine, and how the host places an operation before it. -/

namespace Sys2Proof.Machine

open Sys2Proof

/-- One step: the next operation at the boundary is taken, its word is decoded, and it runs. A reserved word is
refused (spec/30_encoding.md R52). With nothing presented the block waits: only an input makes it act
(20_memory.md R31, 60_exceptions.md R134). -/
def step (s : State) : Host.Outcome State Fault Refusal :=
  match s.env.pending with
  | [] => .next s
  | l :: rest =>
    match decode l.word with
    | .op i => exec i (takeLine l rest s)
    | .reserved => .next (refuse .rf1 (takeLine l rest s))

/-- The state with the word of `w` placed so that the very next step takes it and runs it: an input word presented,
an output word issued by the block, a phase word issued with PHASE holding that phase. -/
def State.withFetchWord (s : State) (nbits w : Nat) : State := placeWord (BitVec.ofNat 8 (w % 2 ^ nbits)) s

end Sys2Proof.Machine
end

