-- ==== Sys2Proof/Machine/Trace.lean ====
section
/-! DEFINITION. Traces (spec/30_encoding.md R61, R62): the lines a trace line stands for at a state, running a trace, its
errors, and the bytes it encodes to. -/

namespace Sys2Proof.Machine

open Sys2Proof

/-- A presented input word. -/
def inputLine (i : Instr) (arrivals : List Msg) (draws : Option (List Draw)) (s : State) : OpLine :=
  { side := .input, word := encode i, operands := s.port.operands, arrivals := arrivals, draws := draws }

/-- How many STEPs bring the state to the phase `p`, or to PH_IDLE if it comes first, `fuel` at most;
none where STEP is refused. -/
def stepsTo (p : Phase) : Nat → State → Nat
  | 0, _ => 0
  | fuel + 1, s =>
    if s.regs.phase = p ∨ s.regs.phase = .idle ∨ s.regs.refused = true then 0 else stepsTo p fuel (runPhase s) + 1

/-- The state a TICK_BEGIN leaves. -/
def tickBegun (s : State) : State :=
  match execTickBegin s with
  | .next t => t
  | .fault _ => s
  | .refused _ => s

/-- The words a trace line expands to at a state (R62), in order. A tick has at most 7 phases (41_scheduler_tick.md
R72), so no expansion needs more STEPs. The model's choice (notes/assumptions/19.md): STEP_TO ends at PH_IDLE where the
phase is not met, and is no word at all where PHASE already is that phase or PH_IDLE. -/
def expansion (l : TraceLine) (s : State) : List Instr :=
  let loaded := takeLine (inputLine .step l.arrivals (some l.draws) s) s.env.pending s
  match l.word with
  | .reset => [.reset]
  | .setup => [.setup]
  | .tickBegin => [.tickBegin]
  | .step => [.step]
  | .irqDone => [.irqDone]
  | .irqPreamble => [.irqPreamble]
  | .tick => .tickBegin :: List.replicate (stepsTo .idle 7 (tickBegun loaded)) .step
  | .boot => [.reset, .setup]
  | .irqBoth => [.irqDone, .irqPreamble]
  | .stepTo p => List.replicate (stepsTo p 7 loaded) .step

/-- The lines a trace line presents at a state: the first carries the arrivals and the draws, and the others go on
with those draws (R62). A line that expands to no word presents none; its arrivals and draws are met by `runLine`
(the model's choice, notes/assumptions/19.md). -/
def linesOf (l : TraceLine) (s : State) : List OpLine :=
  match expansion l s with
  | [] => []
  | i :: rest => inputLine i l.arrivals (some l.draws) s :: rest.map fun j => inputLine j [] none s

/-- Presenting lines after what is already pending. -/
def present (lines : List OpLine) (s : State) : State :=
  { s with env := { s.env with pending := s.env.pending ++ lines } }

/-- Taking the next `k` operations. -/
def stepMany : Nat → State → Host.Outcome State Fault Refusal
  | 0, s => .next s
  | k + 1, s =>
    match step s with
    | .next t => stepMany k t
    | .fault f => .fault f
    | .refused r => .refused r

/-- Running a trace line from a state with nothing pending. A line that expands to no word still has its messages
appended and asks for none of its draws (the model's choice, notes/assumptions/19.md). -/
def runLine (l : TraceLine) (s : State) : Host.Outcome State Fault Refusal :=
  match linesOf l s with
  | [] => .next { s with env := { s.env with outq := s.env.outq ++ l.arrivals, draws := l.draws } }
  | first :: rest => stepMany (rest.length + 1) (present (first :: rest) s)

/-- How running a trace ends. -/
inductive TraceEnd where
  /-- every line ran, and each asked for all of its draws -/
  | done (s : State)
  /-- an error of the trace, not of the block (R61): a line that left the state `s` never asked for these draws -/
  | unasked (draws : List Draw) (s : State)
  /-- a step faulted; none does -/
  | fault (f : Fault)
  /-- a step was refused by the model; none is -/
  | refused (r : Refusal)
deriving DecidableEq, Repr

/-- Running a trace from a state with nothing pending: each line is expanded at the state it comes at, and a draw that
its line never asks for ends the trace in error (R61). -/
def runTrace : List TraceLine → State → TraceEnd
  | [], s => .done s
  | l :: rest, s =>
    match runLine l s with
    | .next t => if t.env.draws = [] then runTrace rest t else .unasked t.env.draws t
    | .fault f => .fault f
    | .refused r => .refused r

/-- The bytes a trace line encodes to at a state (R61). -/
def lineBytes (l : TraceLine) (s : State) : List OpWord := (expansion l s).map encode

/-- The bytes a trace encodes to from a state: those of its lines, each expanded at the state it comes at (R61). -/
def traceBytes : List TraceLine → State → List OpWord
  | [], _ => []
  | l :: rest, s =>
    lineBytes l s ++
      match runLine l s with
      | .next t => traceBytes rest t
      | .fault _ => []
      | .refused _ => []

end Sys2Proof.Machine
end

