-- ==== Sys2Proof/Safety.lean ====
section
/-! DEFINITION. The terms in which claims about the machine are stated: when an operation is accepted
(spec/30_encoding.md R53), which phase rule it runs (41_scheduler_tick.md R71), runs of several operations, the phases
left in a tick (R72), and the invariant of every state a run reaches from reset. -/

namespace Sys2Proof.Safety

open Sys2Proof Sys2Proof.Machine

/-- The block issues the word at the boundary, and nothing has been refused. That a command word can stand there alone
is the model's choice (notes/assumptions/2.md, 12.md). -/
def Issued (s : State) : Prop := s.regs.refused = false ∧ s.port.side = .issued

/-- The operation `i` runs the rule of the phase `p` at `s`: PHASE holds `p`, and `i` is STEP, or the phase's own word
issued by the block. The second way is the model's choice (notes/assumptions/2.md, 3.md). -/
def Runs (i : Instr) (s : State) (p : Phase) : Prop :=
  s.regs.refused = false ∧ s.regs.phase = p ∧ p ≠ .idle ∧ (i = .step ∨ (i = p.instr ∧ s.port.side = .issued))

/-- The table of R53 with the parameter rule of R58: when an input word is accepted. Words of the other classes never
are. -/
def Accepted (i : Instr) (s : State) : Prop :=
  match i with
  | .reset => True
  | .setup =>
    s.regs.refused = false ∧ s.regs.setupDone = false ∧ s.regs.phase = .idle ∧
      classifierOk s.params.classifier = true
  | .tickBegin => s.regs.refused = false ∧ s.regs.setupDone = true ∧ s.regs.phase = .idle
  | .step => s.regs.refused = false ∧ s.regs.phase ≠ .idle
  | .irqDone => s.regs.refused = false
  | .irqPreamble => s.regs.refused = false
  | _ => False

/-- The operations one after another, up to the first that does not answer a next state. -/
def execSeq : List Instr → State → Host.Outcome State Fault Refusal
  | [], s => .next s
  | i :: rest, s =>
    match exec i s with
    | .next t => execSeq rest t
    | .fault f => .fault f
    | .refused r => .refused r

/-- How many phases a tick still executes at most when PHASE holds `p` (R72). -/
def phasesLeft (p : Phase) : Nat :=
  match p with
  | .idle => 0
  | .sample => 7
  | .gateOff => 6
  | .rxConsume => 5
  | .preambleArm => 4
  | .txComplete => 4
  | .scanRearm => 3
  | .latchClear => 2
  | .gateOn => 1
  | .guardCheck => 2
  | .txAttempt => 1

/-- The phases before which GATE is 0: those after PH_GATE_OFF of an interrupt branch, up to PH_GATE_ON, which opens it
(10_state.md R9). -/
def gated (p : Phase) : Bool :=
  match p with
  | .idle => false
  | .sample => false
  | .gateOff => false
  | .txComplete => true
  | .rxConsume => true
  | .preambleArm => true
  | .scanRearm => true
  | .latchClear => true
  | .gateOn => true
  | .guardCheck => false
  | .txAttempt => false

/-- What holds of the block's registers in every state that a run from reset reaches with the inputs of R53 alone. -/
structure BlockInv (s : State) : Prop where
  /-- what comes next is presented as input: the block issues its own commands inside a step -/
  pendingInputs : ∀ l ∈ s.env.pending, l.side = .input
  /-- GATE is 0 exactly in the gated window (R9) -/
  gateWindow : s.regs.gate = !gated s.regs.phase
  /-- a tick is in progress only after SETUP (R53) -/
  tickAfterSetup : s.regs.phase ≠ .idle → s.regs.setupDone = true
  /-- before SETUP every register holds its reset value, but for the model's marks -/
  beforeSetup :
    s.regs.setupDone = false →
      s.regs = { resetRegs with refused := s.regs.refused, refusedFor := s.regs.refusedFor }
  /-- SETUP has registered both handlers (R11) -/
  registered : s.regs.setupDone = true → s.regs.irqreg = ⟨true, true⟩
  /-- a transmit completion has a transmit to complete (R74) -/
  completesInFlight : s.regs.phase = .txComplete → s.regs.txinfl = true
  /-- no transmit is in flight in the rest of the interrupt branch (R74, R75) -/
  branchIdle :
    gated s.regs.phase = true → s.regs.phase ≠ .txComplete → s.regs.txinfl = false
  /-- RXBUSY is 0 when a preamble is armed (R77) -/
  armsFree : s.regs.phase = .preambleArm → s.regs.rxbusy = false
  /-- a transmit is attempted only with the capability, nothing in flight and the guard elapsed (R83) -/
  attemptAllowed :
    s.regs.phase = .txAttempt → s.regs.cap.tx = true ∧ s.regs.txinfl = false ∧ s.regs.guard.run = false
  /-- the guard does not run while a transmit is in flight, so it is never restarted while running (R108) -/
  guardNotInFlight : s.regs.txinfl = true → s.regs.guard.run = false
  /-- both latches are 0 when the gate is about to open (R82) -/
  latchesCleared : s.regs.phase = .gateOn → s.regs.latch = ⟨false, false⟩
  /-- the interrupt branch is entered only with a latch set (R73) -/
  branchHasLatch : s.regs.phase = .gateOff → s.regs.latch.any = true
  /-- the active slot is slot 0 (R19) -/
  activeZero : s.regs.active = 0
  /-- by default only a successful start is in flight (R75) -/
  resultOk :
    s.params.txInflightOnStartFailure = false → s.regs.txinfl = true → s.regs.txres = statusOk

/-- The classes of the words that come into the block (R46). -/
def isInput (i : Instr) : Bool :=
  match i.opClass with
  | .control => true
  | .interrupt => true
  | _ => false

/-- The state that `refuse(reason)` leaves (60_exceptions.md R133): REFUSED is 1, the model keeps the reason of the
first refusal, and nothing else changes. -/
def marked (why : RefusalReason) (s : State) : State :=
  { s with
    regs := { s.regs with refused := true, refusedFor := if s.regs.refused then s.regs.refusedFor else some why } }

/-- How often a command of this word occurs in a list of commands. -/
def countOf (c : Instr) (events : List PortEvent) : Nat := events.countP fun e => decide (e.word = encode c)

/-- The table of 46_external_ports.md R126 for SETUP: at least and at most how often it issues a command. -/
def setupBudget (splitConfig : Bool) (c : Instr) : Nat × Nat :=
  match c with
  | .drvBegin => (1, 1)
  | .drvSetCrc => (1, 1)
  | .drvSetFrequency => (0, if splitConfig then 1 else 0)
  | .drvStartChannelScan => (0, 1)
  | .drvAttachIrq => (2, 2)
  | .logEmit => (0, 2)
  | _ => (0, 0)

/-- The table of R126 for the phases. -/
def phaseBudget (splitConfig : Bool) (p : Phase) (c : Instr) : Nat × Nat :=
  match p, c with
  | .txComplete, .logEmit => (1, 1)
  | .rxConsume, .drvReadData => (0, 1)
  | .rxConsume, .drvGetRssi => (0, 1)
  | .rxConsume, .drvGetSnr => (0, 1)
  | .rxConsume, .drvGetFreqError => (0, 1)
  | .rxConsume, .inqPush => (0, 1)
  | .rxConsume, .displayShow => (0, 1)
  | .rxConsume, .logEmit => (0, 1)
  | .preambleArm, .drvSetFrequency => (0, if splitConfig then 1 else 0)
  | .preambleArm, .drvStartReceive => (0, 1)
  | .preambleArm, .logEmit => (0, 1)
  | .scanRearm, .drvSetFrequency => (0, if splitConfig then 1 else 0)
  | .scanRearm, .drvStartChannelScan => (0, 1)
  | .scanRearm, .logEmit => (0, 1)
  | .txAttempt, .drvSetFrequency => (0, if splitConfig then 1 else 0)
  | .txAttempt, .drvStartTransmit => (0, 1)
  | .txAttempt, .drvGetModemStatus => (0, if splitConfig then 0 else 1)
  | .txAttempt, .outqEmpty => (1, 1)
  | .txAttempt, .outqDequeue => (0, 1)
  | .txAttempt, .logEmit => (0, 1)
  | _, _ => (0, 0)

/-- How many phases a tick executes when no interrupt comes in between (30_encoding.md R62), from the state in which
TICK_BEGIN is presented and the state in which the tick ends. -/
def tickLength (s t : State) : Nat :=
  if s.regs.latch.opDone || s.regs.latch.pre then
    if s.regs.txinfl then (if s.params.rescanAfterTx then 6 else 5) else 7
  else if t.regs.guard.run = false ∧ s.regs.cap.tx = true ∧ s.regs.txinfl = false then 3 else 2

end Sys2Proof.Safety
end

