-- ==== Sys2Proof/Certificates/Slice0/Obligations.lean ====
section
/-! DEFINITION. The statements about the machine, by the rules of spec/. -/

open Sys2Proof Sys2Proof.Machine Sys2Proof.Safety

/-- R47 to R51: words of each class, and reserved words beside them, decode to what the tables say. -/
def Obligations.WordsDecodeToTheirInstructions : Prop :=
  decode 0x00#8 = .op .reset ∧ decode 0x03#8 = .op .step ∧ decode 0x04#8 = .reserved ∧
    decode 0x20#8 = .op .irqDone ∧ decode 0x21#8 = .op .irqPreamble ∧ decode 0x22#8 = .reserved ∧
    decode 0x40#8 = .op .drvBegin ∧ decode 0x4B#8 = .op .drvAttachIrq ∧ decode 0x4C#8 = .reserved ∧
    decode 0x60#8 = .op .outqEmpty ∧ decode 0x64#8 = .op .logEmit ∧ decode 0x65#8 = .reserved ∧
    decode 0x80#8 = .op .phIdle ∧ decode 0x8A#8 = .op .phTxAttempt ∧ decode 0x8B#8 = .reserved ∧
    decode 0xFF#8 = .reserved

/-- R52, R54: a byte decodes to a named word exactly when it is that word's encoding, so to one at most, and to reserved
exactly in the listed ranges. -/
def Obligations.DecodeInvertsEncode : Prop :=
  (∀ (w : OpWord) (i : Instr), decode w = .op i ↔ w = encode i) ∧
    ∀ w : OpWord,
      decode w = .reserved ↔
        (0x04 ≤ w.toNat ∧ w.toNat ≤ 0x1F) ∨ (0x22 ≤ w.toNat ∧ w.toNat ≤ 0x3F) ∨
          (0x4C ≤ w.toNat ∧ w.toNat ≤ 0x5F) ∨ (0x65 ≤ w.toNat ∧ w.toNat ≤ 0x7F) ∨
          (0x8B ≤ w.toNat ∧ w.toNat ≤ 0x9F) ∨ 0xA0 ≤ w.toNat

/-- R28 for the state after reset: every register at the value of the table, and OBS at 0x00C4. Of the model's own
field refusedFor nothing is said. -/
def Obligations.ResetStateRegisters : Prop :=
  State.reset.regs =
      { latch := ⟨false, false⟩, gate := true, irqreg := ⟨false, false⟩, setupDone := false, rxbusy := false,
        txinfl := false, txres := 0#16, guard := ⟨false, 0, 0⟩, cap := ⟨true, true⟩, fault := 0, active := 0,
        phase := .idle, refused := false, refusedFor := State.reset.regs.refusedFor } ∧
    Phase.code State.reset.regs.phase = 0x80#8 ∧ obs State.reset.regs = 0x00C4#16

/-- R28, R141: RESET in any state writes every register, issues no command, and touches neither the queue nor the
constants. Of the model's own field refusedFor nothing is said. -/
def Obligations.ResetInstructionResult : Prop :=
  ∀ s : State,
    ∃ t,
      exec .reset s = .next t ∧
        t =
          { s with
            regs :=
              { latch := ⟨false, false⟩, gate := true, irqreg := ⟨false, false⟩, setupDone := false, rxbusy := false,
                txinfl := false, txres := 0#16, guard := ⟨false, 0, 0⟩, cap := ⟨true, true⟩, fault := 0, active := 0,
                phase := .idle, refused := false, refusedFor := t.regs.refusedFor } } ∧
        Phase.code t.regs.phase = 0x80#8 ∧ obs t.regs = 0x00C4#16

/-- R53, R58: the machine right after reset accepts SETUP, whatever its open parameters are: its classifyBeginStatus
obeys R58. The model's choice (notes/assumptions/10.md). -/
def Obligations.SetupAcceptedAfterReset : Prop := Accepted .setup State.reset

/-- R142: after RESET interrupt events are accepted and have no effect, and ticks are refused. -/
def Obligations.AfterResetTicksAreRefused : Prop :=
  ∀ s : State,
    s.regs = State.reset.regs →
      exec .irqDone s = .next s ∧ exec .irqPreamble s = .next s ∧
        exec .tickBegin s = .next (marked .rf4 s) ∧ exec .step s = .next (marked .rf6 s)

/-- R63: an accepted SETUP, whatever the driver answers: the commands in order with their operands and answers, the
capabilities, FAULT, IRQREG, GATE and SETUP_DONE, and nothing else changed. -/
def Obligations.SetupResult : Prop :=
  ∀ s : State,
    Accepted .setup s →
      let c := cfg s
      let b := drawFrom asBegin Config.freeStatus s.env.draws s.env.free
      let k := drawFrom asSetCrc Config.freeStatus b.2.1 b.2.2
      let err : Option ErrKind :=
        if b.1 = statusOk then none else ErrKind.ofCode (classify s.params.classifier b.1)
      let crcFails := decide (k.1 ≠ statusOk)
      let u : State :=
        { s with
          regs :=
            { s.regs with
              irqreg := ⟨true, true⟩
              cap :=
                { rx := s.regs.cap.rx && !err.any revokesRx && !crcFails
                  tx := s.regs.cap.tx && !err.any revokesTx && !crcFails }
              fault := s.regs.fault ||| err.elim 0 faultBit ||| (if crcFails then faultCrc else 0) }
          env :=
            { s.env with
              draws := k.2.1
              free := k.2.2
              out :=
                s.env.out ++
                  [.drvBegin c.rxFreq c.bandwidth c.spreadingFactor c.codingRate s.params.syncWord c.txPower
                    c.preambleLen c.rxGain b.1] ++
                  err.toList.map (fun e => .logEmit (.cfgError e b.1)) ++ [.drvSetCrc true k.1] ++
                  (if crcFails then [.logEmit (.crcError k.1)] else []) ++
                  [.drvAttachIrq .line0, .drvAttachIrq .line1] } }
      let a := scanArm u
      exec .setup s =
        .next
          (if u.regs.cap.rx = false then { u with regs := { u.regs with gate := true, setupDone := true } }
          else if a.1 = statusOk then { a.2 with regs := { u.regs with gate := true, setupDone := true } }
          else
            { a.2 with
              regs :=
                { u.regs with
                  cap := { u.regs.cap with rx := false }
                  fault := u.regs.fault ||| faultScan
                  gate := true
                  setupDone := true }
              env := { a.2.env with out := a.2.env.out ++ [.logEmit (.setupScanFail a.1)] } })

/-- R69: which capabilities an accepted SETUP after RESET leaves, read off the commands it issued. -/
def Obligations.SetupCapabilities : Prop :=
  ∀ s t : State,
    Accepted .setup s →
      s.regs.cap = ⟨true, true⟩ →
        exec .setup s = .next t →
          ∃ events,
            t.env.out = s.env.out ++ events ∧
              (t.regs.cap.tx = false ↔
                (∃ k st, .logEmit (.cfgError k st) ∈ events ∧ revokesTx k = true) ∨
                  ∃ st, st ≠ statusOk ∧ .drvSetCrc true st ∈ events) ∧
              (t.regs.cap.rx = false ↔
                (∃ k st, .logEmit (.cfgError k st) ∈ events ∧ revokesRx k = true) ∨
                  (∃ st, st ≠ statusOk ∧ .drvSetCrc true st ∈ events) ∨
                    ∃ st, .logEmit (.setupScanFail st) ∈ events)

/-- R64: the table REVOKE; beside it the codes of the kinds it is read by (R58) and the FAULT bits they set (R59). -/
def Obligations.RevokeTable : Prop :=
  (∀ k : ErrKind, revokesRx k = false ↔ k = .power) ∧ (∀ k : ErrKind, revokesTx k = false ↔ k = .gain) ∧
    [ErrKind.freq, .bw, .sf, .cr, .power, .preamble, .gain, .other].map ErrKind.code =
      [1#4, 2#4, 3#4, 4#4, 5#4, 6#4, 7#4, 8#4] ∧
    (∀ (c : BitVec 4) (k : ErrKind), ErrKind.ofCode c = some k ↔ c = k.code) ∧
    (∀ (k : ErrKind) (j : Nat), (faultBit k).getLsbD j = true ↔ j + 1 = k.code.toNat) ∧
    (∀ j : Nat, faultCrc.getLsbD j = true ↔ j = 8) ∧ ∀ j : Nat, faultScan.getLsbD j = true ↔ j = 9

/-- R58: what classifyBeginStatus answers, as the parameter lists it; its check accepts exactly the functions R58 allows,
for every status; and SETUP is refused with RF8 when the check fails. That the parameter is a finite list, and that the
refusal R58 asks for happens when SETUP is presented, is the model's choice (notes/assumptions/10.md). -/
def Obligations.ClassifierLaw : Prop :=
  (∀ (c : Classifier) (before after : List (Status × BitVec 4)) (st : Status) (k : BitVec 4),
      c.table = before ++ (st, k) :: after → (∀ e ∈ before, e.1 ≠ st) → classify c st = k) ∧
  (∀ (c : Classifier) (st : Status),
      (∀ e ∈ c.table, e.1 ≠ st) → classify c st = if st = statusOk then 0 else c.rest.code) ∧
  (∀ c : Classifier,
      classifierOk c = true ↔
        classify c statusOk = 0 ∧
          ∀ st, st ≠ statusOk → 1 ≤ (classify c st).toNat ∧ (classify c st).toNat ≤ 8) ∧
    ∀ s : State,
      s.regs.refused = false → s.regs.setupDone = false → s.regs.phase = .idle →
        classifierOk s.params.classifier = false → exec .setup s = .next (marked .rf8 s)

/-- The legality table: a word presented as input that the table does not accept sets the mark and has no other effect,
and so does a reserved word; an accepted one is not refused. Two points are the model's choice and not the table's:
SETUP is accepted only with a classifyBeginStatus that R58 allows (notes/assumptions/10.md), and a control, interrupt or
reserved word is treated so on whichever side it stands (notes/assumptions/15.md). -/
def Obligations.LegalityTable : Prop :=
  ∀ (i : Instr) (s : State),
    isInput i = true ∨ s.port.side = .input →
      (¬Accepted i s → ∃ why, exec i s = .next (marked why s)) ∧
        (Accepted i s → ∃ t, exec i s = .next t ∧ t.regs.refused = false) ∧
        ∀ (l : OpLine) (rest : List OpLine),
          s.env.pending = l :: rest → decode l.word = .reserved → ∃ why, step s = .next (marked why (takeLine l rest s))

/-- Which reason an input is refused for: a control input out of its order, and an output word or a phase word presented
as input. The order among the reasons is the model's choice (notes/assumptions/4.md), and so is that a control word is
treated so on either side (notes/assumptions/15.md). -/
def Obligations.RefusalReasons : Prop :=
  ∀ s : State,
    s.regs.refused = false →
      (s.regs.setupDone = true → exec .setup s = .next (marked .rf3 s)) ∧
        (s.regs.setupDone = false → exec .tickBegin s = .next (marked .rf4 s)) ∧
        (s.regs.setupDone = false → s.regs.phase ≠ .idle → exec .setup s = .next (marked .rf5 s)) ∧
        (s.regs.setupDone = true → s.regs.phase ≠ .idle → exec .tickBegin s = .next (marked .rf5 s)) ∧
        (s.regs.phase = .idle → exec .step s = .next (marked .rf6 s)) ∧
        ∀ i : Instr, isInput i = false → s.port.side = .input → exec i s = .next (marked .rf2 s)

/-- A reserved word at the boundary is refused with RF1. R52 says so of one presented as an input; that it holds of a
line of the block's own side too is the model's choice (notes/assumptions/15.md). -/
def Obligations.ReservedWordRefused : Prop :=
  ∀ (s : State) (l : OpLine) (rest : List OpLine),
    s.env.pending = l :: rest → decode l.word = .reserved → step s = .next (marked .rf1 (takeLine l rest s))

/-- R133: while REFUSED is 1 every operation but RESET leaves the state as it is, and RESET clears the mark. -/
def Obligations.RefusedUntilReset : Prop :=
  ∀ s : State,
    s.regs.refused = true →
      (∀ i, i ≠ .reset → exec i s = .next s) ∧ ∃ t, exec .reset s = .next t ∧ t.regs.refused = false

/-- R127, R132: every operation in every state, and every step, answers a next state. -/
def Obligations.EveryOperationGoesOn : Prop :=
  (∀ (i : Instr) (s : State), ∃ t, exec i s = .next t) ∧ ∀ s : State, ∃ t, step s = .next t

/-- The machine's step: the next line at the boundary is taken and its decoded operation runs on the state in which
the line's arrivals, draws and record stand. That a step takes the next line (notes/assumptions/1.md), that a side and a
record stand beside its word (2.md, 12.md), and that its draws replace those left or go on with them (16.md) is the
model's choice. -/
def Obligations.StepRunsTheDecodedOperation : Prop :=
  ∀ (s : State) (l : OpLine) (rest : List OpLine) (i : Instr),
    s.env.pending = l :: rest → decode l.word = .op i →
      step s =
        exec i
          { s with
            env :=
              { s.env with
                outq := s.env.outq ++ l.arrivals, draws := l.draws.getD s.env.draws, pending := rest }
            port := { side := l.side, operands := l.operands } }

/-- With nothing presented a step changes nothing. The model's choice (notes/assumptions/1.md). -/
def Obligations.WaitsForTheNextInput : Prop :=
  ∀ s : State, s.env.pending = [] → step s = .next s

/-- R61: a draw takes the first value supplied under its name and leaves the others in order. The model's choice: where
none is supplied the value is the next free one (notes/assumptions/7.md), and a draw of an answer that the state itself
settles is used up when it gives that answer and stays when it gives another (notes/assumptions/8.md). -/
def Obligations.DrawsInOrder : Prop :=
  ∀ (α : Type) (sel : Draw → Option α) (free : Nat → α) (k : Nat),
    (∀ (before after : List Draw) (d : Draw) (a : α),
        (∀ x ∈ before, sel x = none) → sel d = some a →
          drawFrom sel free (before ++ d :: after) k = (a, before ++ after, k)) ∧
      (∀ draws : List Draw, (∀ x ∈ draws, sel x = none) → drawFrom sel free draws k = (free k, draws, k + 1)) ∧
      ∀ [DecidableEq α] (answer : α),
        (∀ (before after : List Draw) (d : Draw) (a : α),
          (∀ x ∈ before, sel x = none) → sel d = some a →
            confirmed sel answer (before ++ d :: after) =
              if a = answer then before ++ after else before ++ d :: after) ∧
        ∀ draws : List Draw, (∀ x ∈ draws, sel x = none) → confirmed sel answer draws = draws

/-- R111 to R115, R117: the driver commands that answer a status, issued by the block: the operands sent, the answer
recorded, the draw taken, and nothing else changed. -/
def Obligations.StatusCommandsResult : Prop :=
  ∀ s : State,
    Issued s →
      let c := cfg s
      let after (d : Status × List Draw × Nat) (e : PortEvent) : State :=
        { s with env := { s.env with draws := d.2.1, free := d.2.2, out := s.env.out ++ [e] } }
      let b := drawFrom asBegin Config.freeStatus s.env.draws s.env.free
      let k := drawFrom asSetCrc Config.freeStatus s.env.draws s.env.free
      let f := drawFrom asSetFrequency Config.freeStatus s.env.draws s.env.free
      let n := drawFrom asStartChannelScan Config.freeStatus s.env.draws s.env.free
      let r := drawFrom asStartReceive Config.freeStatus s.env.draws s.env.free
      let x := drawFrom asStartTransmit Config.freeStatus s.env.draws s.env.free
      exec .drvBegin s =
          .next
            (after b
              (.drvBegin c.rxFreq c.bandwidth c.spreadingFactor c.codingRate s.params.syncWord c.txPower c.preambleLen
                c.rxGain b.1)) ∧
        exec .drvSetCrc s = .next (after k (.drvSetCrc true k.1)) ∧
        (s.port.operands.dir = .rx → exec .drvSetFrequency s = .next (after f (.drvSetFrequency c.rxFreq f.1))) ∧
        (s.port.operands.dir = .tx → exec .drvSetFrequency s = .next (after f (.drvSetFrequency c.txFreq f.1))) ∧
        exec .drvStartChannelScan s = .next (after n (.drvStartChannelScan n.1)) ∧
        exec .drvStartReceive s = .next (after r (.drvStartReceive s.params.rxMode r.1)) ∧
        exec .drvStartTransmit s =
          .next
            (after x
              (.drvStartTransmit
                ([s.params.framePrefix.b0, s.params.framePrefix.b1, s.params.framePrefix.b2] ++
                  Config.encodeMsg s.port.operands.msg)
                x.1))

/-- R116, R118, R119: the driver commands that answer data, issued by the block. -/
def Obligations.DataCommandsResult : Prop :=
  ∀ s : State,
    Issued s →
      let after (draws : List Draw) (k : Nat) (e : PortEvent) : State :=
        { s with env := { s.env with draws := draws, free := k, out := s.env.out ++ [e] } }
      let d := drawFrom asReadData Config.freeReadData s.env.draws s.env.free
      let r := drawFrom asGetRssi Config.freeMetric s.env.draws s.env.free
      let n := drawFrom asGetSnr Config.freeMetric s.env.draws s.env.free
      let e := drawFrom asGetFreqError Config.freeMetric s.env.draws s.env.free
      let m := drawFrom asGetModemStatus Config.freeModemStatus s.env.draws s.env.free
      exec .drvReadData s = .next (after d.2.1 d.2.2 (.drvReadData d.1.1 d.1.2)) ∧
        exec .drvGetRssi s = .next (after r.2.1 r.2.2 (.drvGetRssi r.1)) ∧
        exec .drvGetSnr s = .next (after n.2.1 n.2.2 (.drvGetSnr n.1)) ∧
        exec .drvGetFreqError s = .next (after e.2.1 e.2.2 (.drvGetFreqError e.1)) ∧
        exec .drvGetModemStatus s = .next (after m.2.1 m.2.2 (.drvGetModemStatus m.1))

/-- R120: DRV_ATTACH_IRQ issued by the block sets the line's IRQREG bit, and no other. -/
def Obligations.AttachIrqResult : Prop :=
  ∀ s : State,
    Issued s →
      (s.port.operands.line = .line0 →
          exec .drvAttachIrq s =
            .next
              { s with
                regs := { s.regs with irqreg := { s.regs.irqreg with line0 := true } }
                env := { s.env with out := s.env.out ++ [.drvAttachIrq .line0] } }) ∧
        (s.port.operands.line = .line1 →
          exec .drvAttachIrq s =
            .next
              { s with
                regs := { s.regs with irqreg := { s.regs.irqreg with line1 := true } }
                env := { s.env with out := s.env.out ++ [.drvAttachIrq .line1] } })

/-- R121 to R125: the collaborator operations issued by the block: OUTQ_EMPTY answers true exactly when the queue is
empty, OUTQ_DEQUEUE takes the head (a draw that gives the same answer is used up with it), and the one-way operations go
out; and the kind numbers and severities of the records LOG_EMIT sends (R60). -/
def Obligations.CollaboratorCommandsResult : Prop :=
  (∀ s : State,
    Issued s →
      let after (e : PortEvent) : State := { s with env := { s.env with out := s.env.out ++ [e] } }
      let empty := decide (s.env.outq = [])
      exec .outqEmpty s =
          .next
            { s with
              env :=
                { s.env with
                  draws := confirmed asOutqEmpty empty s.env.draws, out := s.env.out ++ [.outqEmpty empty] } } ∧
        (∀ (m : Msg) (rest : List Msg),
          s.env.outq = m :: rest →
            exec .outqDequeue s =
              .next
                { s with
                  env :=
                    { s.env with
                      outq := rest, draws := confirmed asOutqDequeue m s.env.draws
                      out := s.env.out ++ [.outqDequeue m] } }) ∧
        exec .inqPush s = .next (after (.inqPush (Config.decodeMsg s.port.operands.payload))) ∧
        exec .displayShow s = .next (after (.displayShow (Config.summary s.port.operands.msg))) ∧
        exec .logEmit s = .next (after (.logEmit s.port.operands.record))) ∧
    ∀ (k : ErrKind) (st : Status) (rssi snr freqError : Metric) (frame : List Byte),
      [LogRecord.cfgError k st, .crcError st, .setupScanFail st, .txOk st, .txFail st, .txStartFail st,
          .rxUnrecognized rssi snr freqError frame, .rxReadFail st, .rxArmFail st, .scanFail st].map
          (fun r => (r.kind, r.severity.code)) =
        [(0x01#8, 2), (0x02#8, 2), (0x03#8, 2), (0x10#8, 0), (0x11#8, 2), (0x12#8, 2), (0x20#8, 1), (0x21#8, 2),
          (0x22#8, 2), (0x23#8, 2)]

/-- R70: an accepted TICK_BEGIN writes PHASE and nothing else; outside its legality condition it is refused. -/
def Obligations.TickBeginResult : Prop :=
  ∀ s : State,
    (s.regs.refused = false → s.regs.setupDone = true → s.regs.phase = .idle →
        exec .tickBegin s = .next { s with regs := { s.regs with phase := .sample } }) ∧
      (s.regs.refused = true ∨ s.regs.setupDone = false ∨ s.regs.phase ≠ .idle →
        ∃ why, exec .tickBegin s = .next (marked why s))

/-- R71: STEP has the effect of the phase word that PHASE holds, issued by the block. -/
def Obligations.StepRunsTheHeldPhase : Prop :=
  ∀ s : State,
    Accepted .step s →
      ∃ t,
        exec .step s = .next t ∧
          exec s.regs.phase.instr { s with port := { s.port with side := .issued } } =
            .next { t with port := { t.port with side := .issued } }

/-- R24: the word PH_IDLE issued between ticks does nothing; a phase word issued while PHASE holds another phase is
refused. The model's choice (notes/assumptions/3.md). -/
def Obligations.PhaseWordsFollowPhase : Prop :=
  ∀ s : State,
    Issued s →
      (s.regs.phase = .idle → exec .phIdle s = .next s) ∧
        ∀ p : Phase, s.regs.phase ≠ p → exec p.instr s = .next (marked .rf2 s)

/-- R72: the arrows of the phase graph. -/
def Obligations.PhaseGraph : Prop :=
  ∀ (i : Instr) (s : State) (p : Phase),
    Runs i s p →
      ∃ t,
        exec i s = .next t ∧
          t.regs.phase =
            match p with
            | .idle => .idle
            | .sample => if s.regs.latch.opDone = true ∨ s.regs.latch.pre = true then .gateOff else .guardCheck
            | .gateOff => if s.regs.txinfl = true then .txComplete else .rxConsume
            | .txComplete => if s.params.rescanAfterTx = true then .scanRearm else .latchClear
            | .rxConsume => .preambleArm
            | .preambleArm => .scanRearm
            | .scanRearm => .latchClear
            | .latchClear => .gateOn
            | .gateOn => .idle
            | .guardCheck =>
              if t.regs.guard.run = false ∧ s.regs.cap.tx = true ∧ s.regs.txinfl = false then .txAttempt else .idle
            | .txAttempt => .idle

/-- R73, R74: PH_SAMPLE chooses the branch by the latches, and PH_GATE_OFF closes the gate and chooses the sub-branch by
TXINFL. -/
def Obligations.BranchSelection : Prop :=
  ∀ (i : Instr) (s : State),
    (Runs i s .sample →
        (s.regs.latch.opDone = true ∨ s.regs.latch.pre = true →
            exec i s = .next { s with regs := { s.regs with phase := .gateOff } }) ∧
          (s.regs.latch.opDone = false → s.regs.latch.pre = false →
            exec i s = .next { s with regs := { s.regs with phase := .guardCheck } })) ∧
      (Runs i s .gateOff →
        (s.regs.txinfl = true →
            exec i s = .next { s with regs := { s.regs with gate := false, phase := .txComplete } }) ∧
          (s.regs.txinfl = false →
            exec i s = .next { s with regs := { s.regs with gate := false, phase := .rxConsume } }))

/-- R75: PH_TX_COMPLETE. -/
def Obligations.TxCompleteResult : Prop :=
  ∀ (i : Instr) (s : State),
    Runs i s .txComplete →
      let n := drawFrom asNow Config.freeTime s.env.draws s.env.free
      exec i s =
        .next
          { s with
            regs :=
              { s.regs with
                txinfl := false
                latch := ⟨false, false⟩
                guard := ⟨true, n.1.1, 2#33 * (cfg s).preambleDurationMs.setWidth 33⟩
                phase := if s.params.rescanAfterTx then .scanRearm else .latchClear }
            env :=
              { s.env with
                draws := n.2.1
                free := n.2.2
                clock := advance s.env.clock n.1.1 n.1.2
                out :=
                  s.env.out ++
                    [.logEmit (if s.regs.txres = 0#16 then .txOk s.regs.txres else .txFail s.regs.txres)] } }

/-- R76: PH_RX_CONSUME, with no receive armed, with a failing read, with a frame that does not carry the prefix, and
with one that does. -/
def Obligations.RxConsumeResult : Prop :=
  ∀ (i : Instr) (s : State),
    Runs i s .rxConsume →
      let d := drawFrom asReadData Config.freeReadData s.env.draws s.env.free
      let r := drawFrom asGetRssi Config.freeMetric d.2.1 d.2.2
      let n := drawFrom asGetSnr Config.freeMetric r.2.1 r.2.2
      let e := drawFrom asGetFreqError Config.freeMetric n.2.1 n.2.2
      let after (draws : List Draw) (k : Nat) (events : List PortEvent) : State :=
        { s with
          regs := { s.regs with rxbusy := false, phase := .preambleArm }
          env := { s.env with draws := draws, free := k, out := s.env.out ++ .drvReadData d.1.1 d.1.2 :: events } }
      let carries :=
        3 ≤ d.1.1.length ∧
          d.1.1.take 3 = [s.params.framePrefix.b0, s.params.framePrefix.b1, s.params.framePrefix.b2]
      let m := Config.decodeMsg (d.1.1.drop 3)
      (s.regs.rxbusy = false → exec i s = .next { s with regs := { s.regs with phase := .preambleArm } }) ∧
        (s.regs.rxbusy = true → d.1.2 ≠ 0#16 →
          exec i s = .next (after d.2.1 d.2.2 [.logEmit (.rxReadFail d.1.2)])) ∧
        (s.regs.rxbusy = true → d.1.2 = 0#16 → ¬carries →
          exec i s =
            .next
              (after e.2.1 e.2.2
                [.drvGetRssi r.1, .drvGetSnr n.1, .drvGetFreqError e.1,
                  .logEmit (.rxUnrecognized r.1 n.1 e.1 d.1.1)])) ∧
        (s.regs.rxbusy = true → d.1.2 = 0#16 → carries →
          exec i s = .next (after d.2.1 d.2.2 [.inqPush m, .displayShow (Config.summary m)]))

/-- R77: PH_PREAMBLE_ARM. -/
def Obligations.PreambleArmResult : Prop :=
  ∀ (i : Instr) (s : State),
    Runs i s .preambleArm →
      let a := rxArm s
      (s.regs.latch.pre = false → exec i s = .next { s with regs := { s.regs with phase := .scanRearm } }) ∧
        (s.regs.latch.pre = true → a.1 = 0#16 →
          exec i s = .next { a.2 with regs := { s.regs with rxbusy := true, phase := .scanRearm } }) ∧
        (s.regs.latch.pre = true → a.1 ≠ 0#16 →
          exec i s =
            .next
              { a.2 with
                regs := { s.regs with phase := .scanRearm }
                env := { a.2.env with out := a.2.env.out ++ [.logEmit (.rxArmFail a.1)] } })

/-- R78: PH_SCAN_REARM. -/
def Obligations.ScanRearmResult : Prop :=
  ∀ (i : Instr) (s : State),
    Runs i s .scanRearm →
      let a := scanArm s
      (s.regs.cap.rx = false ∨ s.regs.rxbusy = true →
          exec i s = .next { s with regs := { s.regs with phase := .latchClear } }) ∧
        (s.regs.cap.rx = true → s.regs.rxbusy = false → a.1 = 0#16 →
          exec i s = .next { a.2 with regs := { s.regs with phase := .latchClear } }) ∧
        (s.regs.cap.rx = true → s.regs.rxbusy = false → a.1 ≠ 0#16 →
          exec i s =
            .next
              { a.2 with
                regs := { s.regs with phase := .latchClear }
                env := { a.2.env with out := a.2.env.out ++ [.logEmit (.scanFail a.1)] } })

/-- R79, R80: PH_LATCH_CLEAR clears both latches, and PH_GATE_ON opens the gate and ends the tick. -/
def Obligations.BranchExit : Prop :=
  ∀ (i : Instr) (s : State),
    (Runs i s .latchClear →
        exec i s = .next { s with regs := { s.regs with latch := ⟨false, false⟩, phase := .gateOn } }) ∧
      (Runs i s .gateOn → exec i s = .next { s with regs := { s.regs with gate := true, phase := .idle } })

/-- R83: PH_GUARD_CHECK, in integers: the timer has elapsed when it is not running, or when the sample is at least its
duration past its start modulo 2^32. -/
def Obligations.GuardCheckResult : Prop :=
  ∀ (i : Instr) (s : State),
    Runs i s .guardCheck →
      let n := drawFrom asNow Config.freeTime s.env.draws s.env.free
      let expired := s.regs.guard.dur.toNat ≤ (n.1.1.toNat + 2 ^ 32 - s.regs.guard.start.toNat) % 2 ^ 32
      let after (r : Regs) : State :=
        { s with
          regs := r
          env :=
            { s.env with draws := n.2.1, free := n.2.2, clock := advance s.env.clock n.1.1 n.1.2 } }
      (s.regs.guard.run = true → ¬expired → exec i s = .next (after { s.regs with phase := .idle })) ∧
        (s.regs.guard.run = false ∨ expired → s.regs.cap.tx = false ∨ s.regs.txinfl = true →
          exec i s =
            .next (after { s.regs with guard := { s.regs.guard with run := false }, phase := .idle })) ∧
        (s.regs.guard.run = false ∨ expired → s.regs.cap.tx = true → s.regs.txinfl = false →
          exec i s =
            .next (after { s.regs with guard := { s.regs.guard with run := false }, phase := .txAttempt }))

/-- R84: PH_TX_ATTEMPT, with an empty queue, with a reception in progress on a shared channel, and otherwise. A draw of
a queue answer is used up when it gives the answer of the queue (notes/assumptions/8.md). -/
def Obligations.TxAttemptResult : Prop :=
  ∀ (i : Instr) (s : State),
    Runs i s .txAttempt →
      let c := cfg s
      let d := confirmed asOutqEmpty (decide (s.env.outq = [])) s.env.draws
      let g := drawFrom asGetModemStatus Config.freeModemStatus d s.env.free
      let busy := c.rxFreq = c.txFreq ∧ g.1 &&& s.params.rxBusyMask ≠ 0
      (s.env.outq = [] →
          exec i s =
            .next
              { s with
                regs := { s.regs with phase := .idle }
                env := { s.env with draws := d, out := s.env.out ++ [.outqEmpty true] } }) ∧
        (s.env.outq ≠ [] → busy →
          exec i s =
            .next
              { s with
                regs := { s.regs with phase := .idle }
                env :=
                  { s.env with
                    draws := g.2.1, free := g.2.2
                    out := s.env.out ++ [.outqEmpty false, .drvGetModemStatus g.1] } }) ∧
        ∀ (m : Msg) (rest : List Msg),
          s.env.outq = m :: rest → ¬busy →
            let u : State :=
              { s with
                env :=
                  { s.env with
                    outq := rest
                    draws := confirmed asOutqDequeue m (if c.rxFreq = c.txFreq then g.2.1 else d)
                    free := if c.rxFreq = c.txFreq then g.2.2 else s.env.free
                    out :=
                      s.env.out ++ [.outqEmpty false] ++
                        (if c.rxFreq = c.txFreq then [.drvGetModemStatus g.1] else []) ++ [.outqDequeue m] } }
            let a :=
              txStart
                ([s.params.framePrefix.b0, s.params.framePrefix.b1, s.params.framePrefix.b2] ++ Config.encodeMsg m) u
            (a.1 = 0#16 →
                exec i s = .next { a.2 with regs := { s.regs with txinfl := true, txres := a.1, phase := .idle } }) ∧
              (a.1 ≠ 0#16 → s.params.txInflightOnStartFailure = false →
                exec i s =
                  .next
                    { a.2 with
                      regs := { s.regs with cap := { s.regs.cap with tx := false }, phase := .idle }
                      env := { a.2.env with out := a.2.env.out ++ [.logEmit (.txStartFail a.1)] } }) ∧
              (a.1 ≠ 0#16 → s.params.txInflightOnStartFailure = true →
                exec i s =
                  .next
                    { a.2 with
                      regs :=
                        { s.regs with
                          cap := { s.regs.cap with tx := false }, txinfl := true, txres := a.1, phase := .idle }
                      env := { a.2.env with out := a.2.env.out ++ [.logEmit (.txStartFail a.1)] } })

/-- R88: FREQ_SWITCH issues a command only in a split configuration, with the frequency of the direction, and returns
its status. -/
def Obligations.FreqSwitchResult : Prop :=
  ∀ (dir : Dir) (s : State),
    let c := cfg s
    let f := drawFrom asSetFrequency Config.freeStatus s.env.draws s.env.free
    (c.rxFreq = c.txFreq → freqSwitch dir s = (0#16, s)) ∧
      (c.rxFreq ≠ c.txFreq →
        freqSwitch dir s =
          (f.1,
            { s with
              env :=
                { s.env with
                  draws := f.2.1, free := f.2.2
                  out :=
                    s.env.out ++
                      [.drvSetFrequency (match dir with | .rx => c.rxFreq | .tx => c.txFreq) f.1] } }))

/-- R89, R90, R91: an arm or a start goes through the frequency switch of its direction; a failing switch is
returned and the call is not issued; otherwise the call is issued and its status returned. -/
def Obligations.ArmsGoThroughTheSwitch : Prop :=
  ∀ (s : State) (frame : List Byte),
    let answered (u : State) (d : Status × List Draw × Nat) (e : PortEvent) : Status × State :=
      (d.1, { u with env := { u.env with draws := d.2.1, free := d.2.2, out := u.env.out ++ [e] } })
    let rx := freqSwitch .rx s
    let tx := freqSwitch .tx s
    let r := drawFrom asStartReceive Config.freeStatus rx.2.env.draws rx.2.env.free
    let n := drawFrom asStartChannelScan Config.freeStatus rx.2.env.draws rx.2.env.free
    let x := drawFrom asStartTransmit Config.freeStatus tx.2.env.draws tx.2.env.free
    (rx.1 ≠ 0#16 → rxArm s = rx ∧ scanArm s = rx) ∧
      (tx.1 ≠ 0#16 → txStart frame s = tx) ∧
      (rx.1 = 0#16 →
        rxArm s = answered rx.2 r (.drvStartReceive s.params.rxMode r.1) ∧
          scanArm s = answered rx.2 n (.drvStartChannelScan n.1)) ∧
      (tx.1 = 0#16 → txStart frame s = answered tx.2 x (.drvStartTransmit frame x.1))

/-- R93: in an unsplit configuration no operation but the frequency command itself issues DRV_SET_FREQUENCY; and
every operation only adds to the commands issued before. -/
def Obligations.UnsplitNeverReprograms : Prop :=
  ∀ (i : Instr) (s t : State),
    exec i s = .next t →
      ∃ events,
        t.env.out = s.env.out ++ events ∧
          ((cfg s).rxFreq = (cfg s).txFreq → i ≠ .drvSetFrequency →
            ∀ e ∈ events, e.word ≠ encode .drvSetFrequency)

/-- R92: in a split configuration every transmit start of a tick comes directly after a successful switch to the
transmit frequency in the same phase, and every arm after one to the receive frequency. -/
def Obligations.SplitReprogramsBeforeUse : Prop :=
  ∀ (i : Instr) (s t : State) (p : Phase),
    Runs i s p → (cfg s).rxFreq ≠ (cfg s).txFreq → exec i s = .next t →
      ∃ events,
        t.env.out = s.env.out ++ events ∧
          (∀ frame st,
              .drvStartTransmit frame st ∈ events →
                ∃ before after,
                  events =
                    before ++ .drvSetFrequency (cfg s).txFreq 0#16 :: .drvStartTransmit frame st :: after) ∧
          (∀ mode st,
              .drvStartReceive mode st ∈ events →
                ∃ before after,
                  events =
                    before ++ .drvSetFrequency (cfg s).rxFreq 0#16 :: .drvStartReceive mode st :: after) ∧
          ∀ st,
            .drvStartChannelScan st ∈ events →
              ∃ before after,
                events = before ++ .drvSetFrequency (cfg s).rxFreq 0#16 :: .drvStartChannelScan st :: after

/-- R126: how often each command is issued by SETUP and by each phase. -/
def Obligations.CommandBudgets : Prop :=
  ∀ (i : Instr) (s t : State),
    exec i s = .next t →
      ∃ events,
        t.env.out = s.env.out ++ events ∧
          (i = .setup → Accepted .setup s →
            ∀ c,
              (setupBudget (split s) c).1 ≤ countOf c events ∧ countOf c events ≤ (setupBudget (split s) c).2) ∧
          ∀ p,
            Runs i s p →
              ∀ c,
                (phaseBudget (split s) p c).1 ≤ countOf c events ∧
                  countOf c events ≤ (phaseBudget (split s) p c).2

/-- R94, R95, R97, R99: a handler sets its own latch when its line is registered and the gate is open, has no effect
at all otherwise, and writes nothing else. -/
def Obligations.HandlerResult : Prop :=
  ∀ s : State,
    s.regs.refused = false →
      (s.regs.irqreg.line0 = true → s.regs.gate = true →
          exec .irqDone s =
            .next { s with regs := { s.regs with latch := { s.regs.latch with opDone := true } } }) ∧
        (s.regs.irqreg.line0 = false ∨ s.regs.gate = false → exec .irqDone s = .next s) ∧
        (s.regs.irqreg.line1 = true → s.regs.gate = true →
          exec .irqPreamble s =
            .next { s with regs := { s.regs with latch := { s.regs.latch with pre := true } } }) ∧
        (s.regs.irqreg.line1 = false ∨ s.regs.gate = false → exec .irqPreamble s = .next s)

/-- R98, R100: events of one line coalesce, and the two lines' events give the same state in either order. -/
def Obligations.HandlersCoalesceAndCommute : Prop :=
  ∀ s : State,
    execSeq [.irqDone, .irqPreamble] s = execSeq [.irqPreamble, .irqDone] s ∧
      execSeq [.irqDone, .irqDone] s = execSeq [.irqDone] s ∧
      execSeq [.irqPreamble, .irqPreamble] s = execSeq [.irqPreamble] s

/-- R97, R101: any number of interrupt events while the gate is closed leaves no trace in any state. -/
def Obligations.EventsLostWhileGated : Prop :=
  ∀ (s : State) (l : List Instr),
    s.regs.gate = false → (∀ i ∈ l, i = .irqDone ∨ i = .irqPreamble) → execSeq l s = .next s

/-- R145: on an interrupt-branch tick an event between PH_SAMPLE and PH_GATE_OFF has the effect it would have had
before PH_SAMPLE. -/
def Obligations.SampleWindowKeepsEvents : Prop :=
  ∀ (s : State) (i : Instr),
    s.regs.phase = .sample → (s.regs.latch.opDone = true ∨ s.regs.latch.pre = true) →
      (i = .irqDone ∨ i = .irqPreamble) → execSeq [.step, i] s = execSeq [i, .step] s

/-- R106: GUARD_QUERY, in integers; it never changes GUARD.start or GUARD.dur. -/
def Obligations.GuardQueryResult : Prop :=
  ∀ (t : Time) (g : Guard),
    let expired := g.dur.toNat ≤ (t.toNat + 2 ^ 32 - g.start.toNat) % 2 ^ 32
    (g.run = true → expired → guardQuery t g = { g with run := false } ∧ guardElapsed t g = true) ∧
      (g.run = true → ¬expired → guardQuery t g = g ∧ guardElapsed t g = false) ∧
      (g.run = false → guardQuery t g = g ∧ guardElapsed t g = true)

/-- R105, R106, R151: the guard duration is exact, and one of 2^32 or more never elapses. -/
def Obligations.LongGuardNeverElapses : Prop :=
  ∀ (pd : BitVec 32) (start t : Time),
    (guardDuration pd).toNat = 2 * pd.toNat ∧
      (2 ^ 31 ≤ pd.toNat →
        guardElapsed t (guardStart start (guardDuration pd)) = false ∧
          guardQuery t (guardStart start (guardDuration pd)) = guardStart start (guardDuration pd))

/-- R109: a query sees the true elapsed time modulo 2^32. -/
def Obligations.GuardSeesElapsedModulo : Prop :=
  ∀ (t0 t1 : Nat) (d : Duration),
    t0 ≤ t1 →
      (guardElapsed (BitVec.ofNat 32 t1) (guardStart (BitVec.ofNat 32 t0) d) = true ↔
        d.toNat ≤ (t1 - t0) % 2 ^ 32)

/-- R103: a time sample is the true time modulo 2^32 at the moment of the call, the true time never runs back, and no
other law holds (any later time can come, and the same one). The model's choice (notes/assumptions/9.md): the clock stands
still between samples, so no operation but PH_TX_COMPLETE and PH_GUARD_CHECK, which sample it, moves it. -/
def Obligations.ClockLaw : Prop :=
  (∀ s : State, (now s).1 = BitVec.ofNat 32 (now s).2.env.clock ∧ s.env.clock ≤ (now s).2.env.clock) ∧
    (∀ (s : State) (later : Nat),
      s.env.clock ≤ later →
        ∃ sample turns,
          (now { s with env := { s.env with draws := [.now sample turns] } }).2.env.clock = later ∧
            sample = BitVec.ofNat 32 later) ∧
    ∀ (i : Instr) (s t : State),
      exec i s = .next t →
        s.env.clock ≤ t.env.clock ∧
          (t.env.clock ≠ s.env.clock → Runs i s .txComplete ∨ Runs i s .guardCheck)

/-- R44: nothing but OUTQ_DEQUEUE removes a message, only PH_TX_ATTEMPT issues it, one message from the head; and a
step adds what producers append. -/
def Obligations.QueueLaw : Prop :=
  (∀ (i : Instr) (s t : State),
      exec i s = .next t →
        t.env.outq = s.env.outq ∨
          ((Runs i s .txAttempt ∨ i = .outqDequeue) ∧ t.env.outq = s.env.outq.tail)) ∧
    ∀ (s t : State) (l : OpLine) (rest : List OpLine),
      s.env.pending = l :: rest → step s = .next t →
        t.env.outq = s.env.outq ++ l.arrivals ∨ t.env.outq = (s.env.outq ++ l.arrivals).tail

/-- R8, R10: only the handlers set a latch, and only PH_TX_COMPLETE, PH_LATCH_CLEAR and RESET clear one; only
PH_GATE_OFF closes the gate, and only PH_GATE_ON, RESET and SETUP open it. -/
def Obligations.InterruptBridgeWriters : Prop :=
  ∀ (i : Instr) (s t : State),
    exec i s = .next t →
      (s.regs.latch.opDone = false → t.regs.latch.opDone = true → i = .irqDone) ∧
        (s.regs.latch.pre = false → t.regs.latch.pre = true → i = .irqPreamble) ∧
        (s.regs.latch.opDone = true ∧ t.regs.latch.opDone = false ∨
            s.regs.latch.pre = true ∧ t.regs.latch.pre = false →
          i = .reset ∨ Runs i s .txComplete ∨ Runs i s .latchClear) ∧
        (s.regs.gate = true → t.regs.gate = false → Runs i s .gateOff) ∧
        (s.regs.gate = false → t.regs.gate = true → Runs i s .gateOn ∨ i = .reset ∨ i = .setup) ∧
        (Runs i s .gateOff → t.regs.gate = false) ∧
        (Runs i s .gateOn ∨ i = .reset ∨ (i = .setup ∧ Accepted .setup s) → t.regs.gate = true)

/-- R12, R13, R14: the writers of RXBUSY, TXINFL and TXRES. -/
def Obligations.SchedulerFlagWriters : Prop :=
  ∀ (i : Instr) (s t : State),
    exec i s = .next t →
      (s.regs.rxbusy = false → t.regs.rxbusy = true → Runs i s .preambleArm) ∧
        (s.regs.rxbusy = true → t.regs.rxbusy = false → Runs i s .rxConsume ∨ i = .reset) ∧
        (s.regs.txinfl = false → t.regs.txinfl = true → Runs i s .txAttempt) ∧
        (s.regs.txinfl = true → t.regs.txinfl = false → Runs i s .txComplete ∨ i = .reset) ∧
        (t.regs.txres ≠ s.regs.txres → Runs i s .txAttempt ∧ t.regs.txinfl = true ∨ i = .reset) ∧
        (Runs i s .preambleArm → s.regs.latch.pre = true → (rxArm s).1 = 0#16 → t.regs.rxbusy = true) ∧
        (Runs i s .rxConsume → t.regs.rxbusy = false) ∧ (Runs i s .txComplete → t.regs.txinfl = false) ∧
        (i = .reset → t.regs.rxbusy = false ∧ t.regs.txinfl = false ∧ t.regs.txres = 0#16)

/-- R16, R17, R18: between two RESETs no bit of CAP rises, only SETUP clears CAP.rx, and only SETUP and PH_TX_ATTEMPT clear
CAP.tx; only SETUP sets bits of FAULT, none is cleared but by RESET. -/
def Obligations.CapabilityAndFaultWriters : Prop :=
  ∀ (i : Instr) (s t : State),
    exec i s = .next t →
      (i = .reset → t.regs.cap = ⟨true, true⟩ ∧ t.regs.fault = 0) ∧
        (i ≠ .reset →
          (t.regs.cap.rx = true → s.regs.cap.rx = true) ∧ (t.regs.cap.tx = true → s.regs.cap.tx = true) ∧
            (s.regs.cap.rx = true → t.regs.cap.rx = false → i = .setup) ∧
            (s.regs.cap.tx = true → t.regs.cap.tx = false → i = .setup ∨ Runs i s .txAttempt) ∧
            s.regs.fault &&& t.regs.fault = s.regs.fault ∧ (t.regs.fault ≠ s.regs.fault → i = .setup))

/-- R11, R19, R20, R21: IRQREG is written by RESET, SETUP and the attach command that SETUP issues; SETUP_DONE by RESET and
SETUP; ACTIVE by RESET alone, which sets it to 0; the configuration and the parameters by nothing. -/
def Obligations.SetupAndConfigurationWriters : Prop :=
  ∀ (i : Instr) (s t : State),
    exec i s = .next t →
      t.params = s.params ∧ (i ≠ .reset → t.regs.active = s.regs.active) ∧
        (t.regs.irqreg ≠ s.regs.irqreg → i = .reset ∨ i = .setup ∨ (i = .drvAttachIrq ∧ Issued s)) ∧
        (t.regs.setupDone ≠ s.regs.setupDone → i = .reset ∨ i = .setup) ∧
        (i = .setup → Accepted .setup s → t.regs.irqreg = ⟨true, true⟩ ∧ t.regs.setupDone = true) ∧
        (i = .reset → t.regs.irqreg = ⟨false, false⟩ ∧ t.regs.setupDone = false ∧ t.regs.active = 0)

/-- R15: GUARD is written by GUARD_START in PH_TX_COMPLETE, by the query in PH_GUARD_CHECK, which only stops it, and by
RESET. -/
def Obligations.GuardWriters : Prop :=
  ∀ (i : Instr) (s t : State),
    exec i s = .next t → t.regs.guard ≠ s.regs.guard →
      i = .reset ∧ t.regs.guard = ⟨false, 0, 0⟩ ∨
        Runs i s .txComplete ∧ t.regs.guard.run = true ∨
        Runs i s .guardCheck ∧ s.regs.guard.run = true ∧ t.regs.guard = { s.regs.guard with run := false }

/-- R26, R27: the FSM view is decided by the first line that matches, with its code; every bit of OBS; and the reset
value of OBS. -/
def Obligations.StateViews : Prop :=
  (∀ r : Regs,
    (fsm r).code =
        (if r.phase = .preambleArm ∧ r.latch.pre = true then 0b001#3
        else if r.txinfl = true then 0b011#3
        else if r.rxbusy = true then 0b010#3
        else if r.guard.run = true then 0b100#3
        else 0b000#3) ∧
      (obs r).getLsbD 0 = r.latch.opDone ∧ (obs r).getLsbD 1 = r.latch.pre ∧ (obs r).getLsbD 2 = r.gate ∧
      (obs r).getLsbD 3 = r.rxbusy ∧ (obs r).getLsbD 4 = r.txinfl ∧ (obs r).getLsbD 5 = r.guard.run ∧
      (obs r).getLsbD 6 = r.cap.rx ∧ (obs r).getLsbD 7 = r.cap.tx ∧ (obs r).getLsbD 8 = r.setupDone ∧
      (obs r).getLsbD 9 = r.irqreg.line0 ∧ (obs r).getLsbD 10 = r.irqreg.line1 ∧
      (obs r).extractLsb' 11 3 = (fsm r).code ∧ (obs r).getLsbD 14 = false ∧ (obs r).getLsbD 15 = false) ∧
    obs State.reset.regs = 0x00C4#16

/-- The invariant holds right after reset. -/
def Obligations.ResetHasInvariant : Prop := BlockInv State.reset

/-- Every step keeps the invariant: the gated window, the registers before and after SETUP, what the phases may rely
on, the guard at rest while a transmit is in flight. -/
def Obligations.StepKeepsInvariant : Prop := ∀ s t : State, BlockInv s → step s = .next t → BlockInv t

/-- R85, R86, R87: a tick reaches PH_TX_ATTEMPT only from a PH_GUARD_CHECK that finds the guard elapsed, the
capability enabled and nothing in flight. -/
def Obligations.AttemptOnlyAfterGuard : Prop :=
  ∀ (i : Instr) (s t : State),
    exec i s = .next t → t.regs.phase = .txAttempt → s.regs.phase ≠ .txAttempt →
      Runs i s .guardCheck ∧ t.regs.guard.run = false ∧ s.regs.cap.tx = true ∧ s.regs.txinfl = false ∧
        (s.regs.guard.run = true →
          s.regs.guard.dur.toNat ≤ ((now s).1.toNat + 2 ^ 32 - s.regs.guard.start.toNat) % 2 ^ 32)

/-- R86: once CAP.tx is 0 in a reachable state, no run of inputs without RESET issues another transmit start, and the
capability stays 0. -/
def Obligations.NoTransmitOnceDisabled : Prop :=
  ∀ (s t : State) (l : List Instr),
    BlockInv s → s.regs.cap.tx = false → (∀ i ∈ l, isInput i = true ∧ i ≠ .reset) → execSeq l s = .next t →
      t.regs.cap.tx = false ∧
        ∃ events, t.env.out = s.env.out ++ events ∧ ∀ e ∈ events, e.word ≠ encode .drvStartTransmit

/-- R72: every tick returns. After TICK_BEGIN, whatever interrupt events come in between, by the seventh STEP at the
latest PHASE has come back to PH_IDLE, with nothing refused. -/
def Obligations.EveryTickReturns : Prop :=
  ∀ (s : State) (l : List Instr),
    Accepted .tickBegin s → (∀ i ∈ l, i = .step ∨ i = .irqDone ∨ i = .irqPreamble) →
      7 ≤ l.count .step →
        ∃ first rest t,
          l = first ++ rest ∧ execSeq (.tickBegin :: first) s = .next t ∧ t.regs.phase = .idle ∧
            t.regs.refused = false

/-- R62, R72: how many phases a tick executes when no interrupt comes in between. -/
def Obligations.TickLength : Prop :=
  ∀ s : State,
    Accepted .tickBegin s →
      ∃ (n : Nat) (t : State),
        execSeq (.tickBegin :: List.replicate n .step) s = .next t ∧ t.regs.phase = .idle ∧
          n = tickLength s t ∧
          ∀ m, m < n → ∃ u, execSeq (.tickBegin :: List.replicate m .step) s = .next u ∧ u.regs.phase ≠ .idle
end

