-- ==== Sys2Proof/Laws/State.lean ====
section
/-! SUPPORT. What each named update of the state leaves of each part of it. -/

namespace Sys2Proof.Machine

open Sys2Proof

@[simp] theorem withRegs_regs (f : Regs → Regs) (s : State) : (s.withRegs f).regs = f s.regs := rfl
@[simp] theorem withRegs_params (f : Regs → Regs) (s : State) : (s.withRegs f).params = s.params := rfl
@[simp] theorem withRegs_env (f : Regs → Regs) (s : State) : (s.withRegs f).env = s.env := rfl
@[simp] theorem withRegs_port (f : Regs → Regs) (s : State) : (s.withRegs f).port = s.port := rfl

@[simp] theorem setPhase_regs (p : Phase) (s : State) : (setPhase p s).regs = { s.regs with phase := p } := rfl
@[simp] theorem setPhase_params (p : Phase) (s : State) : (setPhase p s).params = s.params := rfl
@[simp] theorem setPhase_env (p : Phase) (s : State) : (setPhase p s).env = s.env := rfl
@[simp] theorem setPhase_port (p : Phase) (s : State) : (setPhase p s).port = s.port := rfl

@[simp] theorem emit_regs (e : PortEvent) (s : State) : (emit e s).regs = s.regs := rfl
@[simp] theorem emit_params (e : PortEvent) (s : State) : (emit e s).params = s.params := rfl
@[simp] theorem emit_port (e : PortEvent) (s : State) : (emit e s).port = s.port := rfl
@[simp] theorem emit_out (e : PortEvent) (s : State) : (emit e s).env.out = s.env.out ++ [e] := rfl
@[simp] theorem emit_outq (e : PortEvent) (s : State) : (emit e s).env.outq = s.env.outq := rfl
@[simp] theorem emit_clock (e : PortEvent) (s : State) : (emit e s).env.clock = s.env.clock := rfl
@[simp] theorem emit_draws (e : PortEvent) (s : State) : (emit e s).env.draws = s.env.draws := rfl
@[simp] theorem emit_free (e : PortEvent) (s : State) : (emit e s).env.free = s.env.free := rfl
@[simp] theorem emit_pending (e : PortEvent) (s : State) : (emit e s).env.pending = s.env.pending := rfl

@[simp] theorem draw_regs {α : Type} (sel : Draw → Option α) (free : Nat → α) (s : State) :
    (s.draw sel free).2.regs = s.regs := rfl
@[simp] theorem draw_params {α : Type} (sel : Draw → Option α) (free : Nat → α) (s : State) :
    (s.draw sel free).2.params = s.params := rfl
@[simp] theorem draw_port {α : Type} (sel : Draw → Option α) (free : Nat → α) (s : State) :
    (s.draw sel free).2.port = s.port := rfl
@[simp] theorem draw_out {α : Type} (sel : Draw → Option α) (free : Nat → α) (s : State) :
    (s.draw sel free).2.env.out = s.env.out := rfl
@[simp] theorem draw_outq {α : Type} (sel : Draw → Option α) (free : Nat → α) (s : State) :
    (s.draw sel free).2.env.outq = s.env.outq := rfl
@[simp] theorem draw_clock {α : Type} (sel : Draw → Option α) (free : Nat → α) (s : State) :
    (s.draw sel free).2.env.clock = s.env.clock := rfl
@[simp] theorem draw_pending {α : Type} (sel : Draw → Option α) (free : Nat → α) (s : State) :
    (s.draw sel free).2.env.pending = s.env.pending := rfl

@[simp] theorem confirm_regs {α : Type} [DecidableEq α] (sel : Draw → Option α) (a : α) (s : State) :
    (s.confirm sel a).regs = s.regs := rfl
@[simp] theorem confirm_params {α : Type} [DecidableEq α] (sel : Draw → Option α) (a : α) (s : State) :
    (s.confirm sel a).params = s.params := rfl
@[simp] theorem confirm_port {α : Type} [DecidableEq α] (sel : Draw → Option α) (a : α) (s : State) :
    (s.confirm sel a).port = s.port := rfl
@[simp] theorem confirm_out {α : Type} [DecidableEq α] (sel : Draw → Option α) (a : α) (s : State) :
    (s.confirm sel a).env.out = s.env.out := rfl
@[simp] theorem confirm_outq {α : Type} [DecidableEq α] (sel : Draw → Option α) (a : α) (s : State) :
    (s.confirm sel a).env.outq = s.env.outq := rfl
@[simp] theorem confirm_clock {α : Type} [DecidableEq α] (sel : Draw → Option α) (a : α) (s : State) :
    (s.confirm sel a).env.clock = s.env.clock := rfl
@[simp] theorem confirm_pending {α : Type} [DecidableEq α] (sel : Draw → Option α) (a : α) (s : State) :
    (s.confirm sel a).env.pending = s.env.pending := rfl
@[simp] theorem confirm_free {α : Type} [DecidableEq α] (sel : Draw → Option α) (a : α) (s : State) :
    (s.confirm sel a).env.free = s.env.free := rfl
@[simp] theorem confirm_draws {α : Type} [DecidableEq α] (sel : Draw → Option α) (a : α) (s : State) :
    (s.confirm sel a).env.draws = confirmed sel a s.env.draws := rfl

@[simp] theorem now_regs (s : State) : (now s).2.regs = s.regs := rfl
@[simp] theorem now_params (s : State) : (now s).2.params = s.params := rfl
@[simp] theorem now_port (s : State) : (now s).2.port = s.port := rfl
@[simp] theorem now_out (s : State) : (now s).2.env.out = s.env.out := rfl
@[simp] theorem now_outq (s : State) : (now s).2.env.outq = s.env.outq := rfl
@[simp] theorem now_pending (s : State) : (now s).2.env.pending = s.env.pending := rfl

@[simp] theorem takeLine_regs (l : OpLine) (rest : List OpLine) (s : State) : (takeLine l rest s).regs = s.regs := rfl
@[simp] theorem takeLine_params (l : OpLine) (rest : List OpLine) (s : State) :
    (takeLine l rest s).params = s.params := rfl
@[simp] theorem takeLine_side (l : OpLine) (rest : List OpLine) (s : State) :
    (takeLine l rest s).port.side = l.side := rfl
@[simp] theorem takeLine_pending (l : OpLine) (rest : List OpLine) (s : State) :
    (takeLine l rest s).env.pending = rest := rfl
@[simp] theorem takeLine_outq (l : OpLine) (rest : List OpLine) (s : State) :
    (takeLine l rest s).env.outq = s.env.outq ++ l.arrivals := rfl
@[simp] theorem takeLine_out (l : OpLine) (rest : List OpLine) (s : State) :
    (takeLine l rest s).env.out = s.env.out := rfl
@[simp] theorem takeLine_clock (l : OpLine) (rest : List OpLine) (s : State) :
    (takeLine l rest s).env.clock = s.env.clock := rfl

/-- The active slot depends on ACTIVE and the parameters alone. -/
theorem cfg_congr {s t : State} (ha : t.regs.active = s.regs.active) (hp : t.params = s.params) : cfg t = cfg s := by
  simp [cfg, ha, hp]

/-- Whether the configuration is split depends on ACTIVE and the parameters alone. -/
theorem split_congr {s t : State} (ha : t.regs.active = s.regs.active) (hp : t.params = s.params) :
    split t = split s := by
  simp [split, cfg_congr ha hp]

end Sys2Proof.Machine
end

