-- ==== Sys2Proof/Laws/Ops.lean ====
section
/-! SUPPORT. One lemma for each shared operation that says all it can do: the draws, the clock, refusal, the handlers,
the port commands, the frequency switch, the guard timer. -/

namespace Sys2Proof.Machine

open Sys2Proof

/-- A name selects the first draw that carries it and leaves the others in their order. -/
theorem takeDraw_first {α : Type} (sel : Draw → Option α) (before after : List Draw) (d : Draw) (a : α)
    (hb : ∀ x ∈ before, sel x = none) (hd : sel d = some a) :
    takeDraw sel (before ++ d :: after) = some (a, before ++ after) := by
  induction before with
  | nil => simp [takeDraw, hd]
  | cons x xs ih =>
    have hx := hb x (by simp)
    have := ih fun y hy => hb y (by simp [hy])
    simp [takeDraw, hx, this]

/-- A name that no draw carries selects nothing. -/
theorem takeDraw_none {α : Type} (sel : Draw → Option α) (draws : List Draw) (h : ∀ x ∈ draws, sel x = none) :
    takeDraw sel draws = none := by
  induction draws with
  | nil => rfl
  | cons x xs ih =>
    have hx := h x (by simp)
    have := ih fun y hy => h y (by simp [hy])
    simp [takeDraw, hx, this]

/-- What an answer settled by the state leaves of the draws: all of them, or all but the first under the name, which
gave that answer. -/
theorem confirmed_cases {α : Type} [DecidableEq α] (sel : Draw → Option α) (answer : α) (draws : List Draw) :
    confirmed sel answer draws = draws ∨ takeDraw sel draws = some (answer, confirmed sel answer draws) := by
  unfold confirmed
  cases h : takeDraw sel draws with
  | none => exact .inl rfl
  | some d =>
    obtain ⟨a, rest⟩ := d
    by_cases ha : a = answer
    · subst ha; simp
    · simp [ha]

/-- The true time never runs back. -/
theorem advance_le (clock : Nat) (sample : Time) (turns : Nat) : clock ≤ advance clock sample turns := by
  unfold advance; omega

/-- The sample is the true time modulo 2^32 (R103). -/
theorem advance_sample (clock : Nat) (sample : Time) (turns : Nat) :
    BitVec.ofNat 32 (advance clock sample turns) = sample := by
  apply BitVec.eq_of_toNat_eq
  have := sample.isLt
  simp only [advance, BitVec.toNat_ofNat, BitVec.toNat_sub]
  omega

/-- Refusing sets the mark and changes no other register but the model's reason. -/
@[simp] theorem refuse_regs (why : RefusalReason) (s : State) :
    (refuse why s).regs =
      { s.regs with refused := true, refusedFor := if s.regs.refused then s.regs.refusedFor else some why } := rfl
@[simp] theorem refuse_params (why : RefusalReason) (s : State) : (refuse why s).params = s.params := rfl
@[simp] theorem refuse_env (why : RefusalReason) (s : State) : (refuse why s).env = s.env := rfl
@[simp] theorem refuse_port (why : RefusalReason) (s : State) : (refuse why s).port = s.port := rfl

/-- A refusal of a machine that has already refused changes nothing (R133, RF7). -/
theorem refuse_refused (why : RefusalReason) (s : State) (h : s.regs.refused = true) : refuse why s = s := by
  obtain ⟨regs, params, env, port⟩ := s
  obtain ⟨latch, gate, irqreg, setupDone, rxbusy, txinfl, txres, guard, cap, fault, active, phase, refused, why'⟩ := regs
  simp only at h
  subst h
  rfl

/-- An operation is refused for its reason or has its effect; either way the machine goes on. -/
theorem unlessRefused_next (why : Option RefusalReason) (effect : State → State) (s : State) :
    (∃ r, why = some r ∧ unlessRefused why effect s = .next (refuse r s)) ∨
      (why = none ∧ unlessRefused why effect s = .next (effect s)) := by
  cases why with
  | some r => exact .inl ⟨r, rfl, rfl⟩
  | none => exact .inr ⟨rfl, rfl⟩

/-- A handler writes at most its latch (R94, R95, R99). -/
theorem handler_regs (l : IrqLine) (s : State) :
    (handler l s).regs = s.regs ∨
      (s.regs.gate = true ∧ (handler l s).regs = { s.regs with latch := setLatch l s.regs.latch }) := by
  unfold handler
  split
  · next h =>
      simp only [Bool.and_eq_true] at h
      exact .inr ⟨h.2, rfl⟩
  · exact .inl rfl

@[simp] theorem handler_params (l : IrqLine) (s : State) : (handler l s).params = s.params := by
  unfold handler; split <;> rfl
@[simp] theorem handler_env (l : IrqLine) (s : State) : (handler l s).env = s.env := by
  unfold handler; split <;> rfl
@[simp] theorem handler_port (l : IrqLine) (s : State) : (handler l s).port = s.port := by
  unfold handler; split <;> rfl

/-- What `t` keeps of `s` when only commands went out: registers, parameters, clock, queue, what is pending, and the
boundary; the commands issued before stand unchanged. -/
structure PortsOnly (s t : State) : Prop where
  regs : t.regs = s.regs
  params : t.params = s.params
  port : t.port = s.port
  clock : t.env.clock = s.env.clock
  pending : t.env.pending = s.env.pending

theorem PortsOnly.refl (s : State) : PortsOnly s s := ⟨rfl, rfl, rfl, rfl, rfl⟩

theorem PortsOnly.trans {s t u : State} (h : PortsOnly s t) (k : PortsOnly t u) : PortsOnly s u :=
  ⟨k.regs.trans h.regs, k.params.trans h.params, k.port.trans h.port, k.clock.trans h.clock,
    k.pending.trans h.pending⟩

/-- A port command only goes out. -/
theorem portsOnly_emit (e : PortEvent) (s : State) : PortsOnly s (emit e s) := ⟨rfl, rfl, rfl, rfl, rfl⟩

/-- A driver call only goes out and takes its answer. -/
theorem portsOnly_driverCall {α : Type} (sel : Draw → Option α) (free : Nat → α) (event : α → PortEvent) (s : State) :
    PortsOnly s (driverCall sel free event s).2 := ⟨rfl, rfl, rfl, rfl, rfl⟩

/-- A driver call leaves the outbound queue alone. -/
theorem driverCall_outq {α : Type} (sel : Draw → Option α) (free : Nat → α) (event : α → PortEvent) (s : State) :
    (driverCall sel free event s).2.env.outq = s.env.outq := rfl

/-- A driver call records one command, with the answer it returns. -/
theorem driverCall_out {α : Type} (sel : Draw → Option α) (free : Nat → α) (event : α → PortEvent) (s : State) :
    (driverCall sel free event s).2.env.out = s.env.out ++ [event (driverCall sel free event s).1] := rfl

theorem portsOnly_logEmit (r : LogRecord) (s : State) : PortsOnly s (logEmit r s) := portsOnly_emit _ s

theorem portsOnly_outqEmpty (s : State) : PortsOnly s (outqEmpty s).2 := ⟨rfl, rfl, rfl, rfl, rfl⟩

/-- A dequeue takes the head of the queue and nothing else (R122). -/
theorem portsOnly_outqDequeue (s : State) : PortsOnly s (outqDequeue s).2 := by
  unfold outqDequeue
  split <;> exact ⟨rfl, rfl, rfl, rfl, rfl⟩

/-- A dequeue leaves the tail of the queue. -/
theorem outqDequeue_outq (s : State) : (outqDequeue s).2.env.outq = s.env.outq.tail := by
  unfold outqDequeue
  split <;> simp_all [driverCall_outq]

end Sys2Proof.Machine
end

