-- ==== Sys2Proof/Laws/Phases.lean ====
section
/-! SUPPORT. What the sub-procedures and the phases leave of the registers, one lemma each. -/

namespace Sys2Proof.Machine

open Sys2Proof

/-- The frequency switch writes no register (43_frequency_switch.md R88). -/
theorem portsOnly_freqSwitch (dir : Dir) (s : State) : PortsOnly s (freqSwitch dir s).2 := by
  unfold freqSwitch
  split
  · exact portsOnly_driverCall _ _ _ s
  · exact .refl s

/-- A call behind the frequency switch writes no register if the call itself writes none. -/
theorem portsOnly_afterSwitch (dir : Dir) (call : State → Status × State) (hc : ∀ t, PortsOnly t (call t).2)
    (s : State) : PortsOnly s (afterSwitch dir call s).2 := by
  unfold afterSwitch
  dsimp only
  split
  · exact (portsOnly_freqSwitch dir s).trans (hc _)
  · exact portsOnly_freqSwitch dir s

theorem portsOnly_rxArm (s : State) : PortsOnly s (rxArm s).2 :=
  portsOnly_afterSwitch _ _ (fun t => portsOnly_driverCall _ _ _ t) s

theorem portsOnly_scanArm (s : State) : PortsOnly s (scanArm s).2 :=
  portsOnly_afterSwitch _ _ (fun t => portsOnly_driverCall _ _ _ t) s

theorem portsOnly_txStart (frame : List Byte) (s : State) : PortsOnly s (txStart frame s).2 :=
  portsOnly_afterSwitch _ _ (fun t => portsOnly_driverCall _ _ _ t) s

theorem portsOnly_receiveInProgress (s : State) : PortsOnly s (receiveInProgress s).2 := by
  unfold receiveInProgress
  split
  · exact .refl s
  · exact portsOnly_driverCall _ _ _ s

/-- Consuming a frame writes no register: the flag is cleared by the phase (R76). -/
theorem portsOnly_consumeFrame (s : State) : PortsOnly s (consumeFrame s) := by
  unfold consumeFrame
  dsimp only
  split
  · exact (portsOnly_driverCall _ _ _ s).trans (portsOnly_logEmit _ _)
  · split
    · exact ((portsOnly_driverCall _ _ _ s).trans (portsOnly_emit _ _)).trans (portsOnly_emit _ _)
    · exact (((portsOnly_driverCall _ _ _ s).trans (portsOnly_driverCall _ _ _ _)).trans
        (portsOnly_driverCall _ _ _ _)).trans ((portsOnly_driverCall _ _ _ _).trans (portsOnly_logEmit _ _))

/-- Re-arming the scan writes no register (R78). -/
theorem portsOnly_rearmScan (s : State) : PortsOnly s (rearmScan s) := by
  unfold rearmScan
  dsimp only
  split
  · exact portsOnly_scanArm s
  · exact (portsOnly_scanArm s).trans (portsOnly_logEmit _ _)

/-- Arming a receive sets RXBUSY when it succeeds and writes nothing when it fails (R77). -/
theorem armReceive_regs (s : State) :
    (armReceive s).regs = { s.regs with rxbusy := s.regs.rxbusy || decide ((rxArm s).1 = statusOk) } := by
  have h := portsOnly_rxArm s
  unfold armReceive
  dsimp only
  split
  · next hs => simp [h.regs, hs]
  · next hs => simp [logEmit, h.regs, hs]

/-- What a transmit start leaves in the registers (R84). -/
theorem transmitStarted_regs (st : Status) (s : State) :
    (transmitStarted st s).regs =
      { s.regs with
        txinfl := if st = statusOk ∨ s.params.txInflightOnStartFailure = true then true else s.regs.txinfl
        txres := if st = statusOk ∨ s.params.txInflightOnStartFailure = true then st else s.regs.txres
        cap := if st = statusOk then s.regs.cap else { s.regs.cap with tx := false } } := by
  unfold transmitStarted
  by_cases h : st = statusOk
  · simp [h]
  · by_cases k : s.params.txInflightOnStartFailure = true <;> simp [h, k, logEmit]

/-- What `t` keeps of `s` over a whole phase: the parameters, the boundary and what is pending. -/
structure Keeps (s t : State) : Prop where
  params : t.params = s.params
  port : t.port = s.port
  pending : t.env.pending = s.env.pending

theorem PortsOnly.keeps {s t : State} (h : PortsOnly s t) : Keeps s t := ⟨h.params, h.port, h.pending⟩

theorem Keeps.trans {s t u : State} (h : Keeps s t) (k : Keeps t u) : Keeps s u :=
  ⟨k.params.trans h.params, k.port.trans h.port, k.pending.trans h.pending⟩

theorem keeps_withRegs (f : Regs → Regs) (s : State) : Keeps s (s.withRegs f) := ⟨rfl, rfl, rfl⟩

theorem keeps_setPhase (p : Phase) (s : State) : Keeps s (setPhase p s) := ⟨rfl, rfl, rfl⟩

/-- A transmit start that is over changes registers, and may log. -/
theorem keeps_transmitStarted (st : Status) (s : State) : Keeps s (transmitStarted st s) := by
  unfold transmitStarted
  dsimp only
  split
  · exact keeps_withRegs _ s
  · split
    · exact ((keeps_withRegs _ s).trans (keeps_withRegs _ _)).trans (portsOnly_logEmit _ _).keeps
    · exact (keeps_withRegs _ s).trans (portsOnly_logEmit _ _).keeps

/-- A transmit start that is over leaves the queue alone. -/
theorem transmitStarted_outq (st : Status) (s : State) : (transmitStarted st s).env.outq = s.env.outq := by
  unfold transmitStarted
  dsimp only
  split
  · rfl
  · split <;> rfl

/-- Sending one message: the queue, the driver, and then the registers of `transmitStarted`. -/
theorem keeps_transmitOne (s : State) : Keeps s (transmitOne s) := by
  have h := portsOnly_outqDequeue s
  unfold transmitOne
  dsimp only
  generalize outqDequeue s = m at h ⊢
  have k := portsOnly_txStart (txFrame s m.1) m.2
  generalize txStart (txFrame s m.1) m.2 = d at k ⊢
  exact (h.keeps.trans k.keeps).trans (keeps_transmitStarted _ _)

/-- The registers after sending one message, from the status that TX_START returned (R84). -/
theorem transmitOne_regs (s : State) :
    (transmitOne s).regs = (transmitStarted (txStart (txFrame s (outqDequeue s).1) (outqDequeue s).2).1 s).regs := by
  have h := portsOnly_outqDequeue s
  unfold transmitOne
  dsimp only
  generalize outqDequeue s = m at h ⊢
  have k := portsOnly_txStart (txFrame s m.1) m.2
  generalize txStart (txFrame s m.1) m.2 = d at k ⊢
  simp only [transmitStarted_regs, k.regs, h.regs, k.params, h.params]

theorem keeps_phRxConsume (s : State) : Keeps s (phRxConsume s) := by
  unfold phRxConsume
  dsimp only
  split
  · exact ((portsOnly_consumeFrame s).keeps.trans (keeps_withRegs _ _)).trans (keeps_setPhase _ _)
  · exact keeps_setPhase _ s

theorem keeps_armReceive (s : State) : Keeps s (armReceive s) := by
  unfold armReceive
  dsimp only
  split
  · exact (portsOnly_rxArm s).keeps.trans (keeps_withRegs _ _)
  · exact ((portsOnly_rxArm s).trans (portsOnly_logEmit _ _)).keeps

theorem keeps_phPreambleArm (s : State) : Keeps s (phPreambleArm s) := by
  unfold phPreambleArm
  split
  · exact (keeps_armReceive s).trans (keeps_setPhase _ _)
  · exact keeps_setPhase _ s

theorem keeps_phScanRearm (s : State) : Keeps s (phScanRearm s) := by
  unfold phScanRearm
  split
  · exact (portsOnly_rearmScan s).keeps.trans (keeps_setPhase _ _)
  · exact keeps_setPhase _ s

theorem keeps_now (s : State) : Keeps s (now s).2 := ⟨rfl, rfl, rfl⟩

theorem keeps_phTxComplete (s : State) : Keeps s (phTxComplete s) := by
  unfold phTxComplete
  exact ((portsOnly_logEmit _ s).keeps.trans (keeps_now _)).trans (keeps_withRegs _ _)

theorem keeps_phGuardCheck (s : State) : Keeps s (phGuardCheck s) := by
  unfold phGuardCheck
  exact (keeps_now s).trans (keeps_withRegs _ _)

theorem keeps_phTxAttempt (s : State) : Keeps s (phTxAttempt s) := by
  have h := portsOnly_outqEmpty s
  unfold phTxAttempt
  generalize outqEmpty s = e at h ⊢
  have k := portsOnly_receiveInProgress e.2
  dsimp only
  generalize receiveInProgress e.2 = b at k ⊢
  split
  · exact h.keeps.trans (keeps_setPhase _ _)
  · split
    · exact (h.keeps.trans k.keeps).trans (keeps_setPhase _ _)
    · exact ((h.keeps.trans k.keeps).trans (keeps_transmitOne _)).trans (keeps_setPhase _ _)

/-- Every phase rule keeps the parameters, the boundary and what is pending (R71). -/
theorem keeps_runPhase (s : State) : Keeps s (runPhase s) := by
  unfold runPhase
  split
  · exact ⟨rfl, rfl, rfl⟩
  · exact keeps_setPhase _ s
  · unfold phGateOff enterBranch
    exact keeps_withRegs _ s
  · exact keeps_phTxComplete s
  · exact keeps_phRxConsume s
  · exact keeps_phPreambleArm s
  · exact keeps_phScanRearm s
  · unfold phLatchClear clearLatches
    exact keeps_withRegs _ s
  · unfold phGateOn leaveBranch
    exact keeps_withRegs _ s
  · exact keeps_phGuardCheck s
  · exact keeps_phTxAttempt s

/-- The registers after PH_TX_COMPLETE (R75). -/
theorem phTxComplete_regs (s : State) :
    (phTxComplete s).regs =
      { s.regs with
        txinfl := false
        latch := ⟨false, false⟩
        guard := guardStart (now (logEmit (completionRecord s.regs.txres) s)).1
          (guardDuration (cfg s).preambleDurationMs)
        phase := if s.params.rescanAfterTx then .scanRearm else .latchClear } := rfl

/-- The registers after PH_RX_CONSUME (R76). -/
theorem phRxConsume_regs (s : State) :
    (phRxConsume s).regs = { s.regs with rxbusy := false, phase := .preambleArm } := by
  have h := portsOnly_consumeFrame s
  unfold phRxConsume
  dsimp only
  split
  · next hb => simp [h.regs]
  · next hb =>
      simp only [Bool.not_eq_true] at hb
      simp [← hb]

/-- The registers after PH_PREAMBLE_ARM (R77). -/
theorem phPreambleArm_regs (s : State) :
    (phPreambleArm s).regs =
      { s.regs with
        rxbusy := s.regs.rxbusy || (s.regs.latch.pre && decide ((rxArm s).1 = statusOk))
        phase := .scanRearm } := by
  unfold phPreambleArm
  split
  · next h => simp [armReceive_regs, h]
  · next h => simp [h]

/-- The registers after PH_SCAN_REARM (R78). -/
theorem phScanRearm_regs (s : State) : (phScanRearm s).regs = { s.regs with phase := .latchClear } := by
  unfold phScanRearm
  split
  · simp [(portsOnly_rearmScan s).regs]
  · rfl

/-- The registers after PH_GUARD_CHECK (R83). -/
theorem phGuardCheck_regs (s : State) :
    (phGuardCheck s).regs =
      { s.regs with
        guard := guardQuery (now s).1 s.regs.guard
        phase := if guardElapsed (now s).1 s.regs.guard && s.regs.cap.tx && !s.regs.txinfl then .txAttempt
          else .idle } := rfl

/-- The registers after PH_TX_ATTEMPT (R84): no transmit was tried, or one start returned the status `st`. -/
theorem phTxAttempt_regs (s : State) :
    (phTxAttempt s).regs = { s.regs with phase := .idle } ∨
      ∃ st, (phTxAttempt s).regs = { (transmitStarted st s).regs with phase := .idle } := by
  have h := portsOnly_outqEmpty s
  unfold phTxAttempt
  generalize outqEmpty s = e at h ⊢
  have k := portsOnly_receiveInProgress e.2
  dsimp only
  generalize receiveInProgress e.2 = b at k ⊢
  split
  · exact .inl (by simp [h.regs])
  · split
    · exact .inl (by simp [k.regs, h.regs])
    · refine .inr ⟨(txStart (txFrame b.2 (outqDequeue b.2).1) (outqDequeue b.2).2).1, ?_⟩
      simp only [setPhase_regs, transmitOne_regs, transmitStarted_regs, k.regs, h.regs, k.params, h.params]

/-- The guard query writes GUARD.run alone, and only clears it (45_guard_timer.md R106). -/
theorem guardQuery_cases (t : Time) (g : Guard) :
    guardQuery t g = g ∨ (g.run = true ∧ guardExpired t g = true ∧ guardQuery t g = { g with run := false }) := by
  unfold guardQuery
  split
  · next h =>
      simp only [Bool.and_eq_true] at h
      exact .inr ⟨h.1, h.2, rfl⟩
  · exact .inl rfl

/-- The query answers "elapsed" exactly when it leaves the timer stopped (R106). -/
theorem guardElapsed_iff (t : Time) (g : Guard) : guardElapsed t g = true ↔ (guardQuery t g).run = false := by
  simp [guardElapsed]

end Sys2Proof.Machine
end

