-- ==== Sys2Proof/Laws/Setup.lean ====
section
/-! SUPPORT. What SETUP and the phase rules leave of the registers they may write, said once. -/

namespace Sys2Proof.Machine

open Sys2Proof

/-- What a step of SETUP between begin and the scan may do: it clears capabilities and sets FAULT bits, and keeps
every other register, the parameters, the boundary, the clock, the queue and what is pending. -/
structure Degrades (s t : State) : Prop where
  regs :
    ∃ c f, t.regs = { s.regs with cap := c, fault := s.regs.fault ||| f } ∧ (c.rx = true → s.regs.cap.rx = true) ∧
      (c.tx = true → s.regs.cap.tx = true)
  params : t.params = s.params
  port : t.port = s.port
  clock : t.env.clock = s.env.clock
  outq : t.env.outq = s.env.outq
  pending : t.env.pending = s.env.pending

theorem Degrades.refl (s : State) : Degrades s s :=
  ⟨⟨s.regs.cap, 0, by simp, id, id⟩, rfl, rfl, rfl, rfl, rfl⟩

theorem Degrades.trans {s t u : State} (h : Degrades s t) (k : Degrades t u) : Degrades s u := by
  obtain ⟨c, f, hr, h1, h2⟩ := h.regs
  obtain ⟨c', f', kr, k1, k2⟩ := k.regs
  refine ⟨⟨c', f ||| f', ?_, ?_, ?_⟩, k.params.trans h.params, k.port.trans h.port, k.clock.trans h.clock,
    k.outq.trans h.outq, k.pending.trans h.pending⟩
  · rw [kr, hr, BitVec.or_assoc]
  · intro hc
    have := k1 hc
    rw [hr] at this
    exact h1 this
  · intro hc
    have := k2 hc
    rw [hr] at this
    exact h2 this

/-- A driver call degrades nothing. -/
theorem degrades_driverCall {α : Type} (sel : Draw → Option α) (free : Nat → α) (event : α → PortEvent) (s : State) :
    Degrades s (driverCall sel free event s).2 :=
  ⟨⟨s.regs.cap, 0, by simp [driverCall, emit, State.draw], id, id⟩, rfl, rfl, rfl, rfl, rfl⟩

/-- Clearing capabilities and setting FAULT bits, and logging it. -/
theorem degrades_log (r : LogRecord) (c : Cap) (f : BitVec 10) (s : State) (h1 : c.rx = true → s.regs.cap.rx = true)
    (h2 : c.tx = true → s.regs.cap.tx = true) :
    Degrades s (logEmit r (s.withRegs fun q => { q with cap := c, fault := q.fault ||| f })) :=
  ⟨⟨c, f, rfl, h1, h2⟩, rfl, rfl, rfl, rfl, rfl⟩

theorem degrades_setupBegin (s : State) : Degrades s (setupBegin s) := by
  have h : Degrades s (drvBegin s).2 := degrades_driverCall _ _ _ s
  unfold setupBegin
  dsimp only
  generalize drvBegin s = d at h ⊢
  split
  · exact h
  · refine h.trans ?_
    unfold beginFailed
    split
    · refine degrades_log _ _ _ _ ?_ ?_ <;> simp +contextual [revoke]
    · exact .refl _

theorem degrades_setupCrc (s : State) : Degrades s (setupCrc s) := by
  have h : Degrades s (drvSetCrc s).2 := degrades_driverCall _ _ _ s
  unfold setupCrc
  dsimp only
  generalize drvSetCrc s = d at h ⊢
  split
  · exact h
  · exact h.trans (degrades_log _ _ _ _ (by simp) (by simp))

/-- The frequency switch degrades nothing. -/
theorem degrades_freqSwitch (dir : Dir) (s : State) : Degrades s (freqSwitch dir s).2 := by
  unfold freqSwitch
  split
  · exact degrades_driverCall _ _ _ s
  · exact .refl s

theorem degrades_scanArm (s : State) : Degrades s (scanArm s).2 := by
  unfold scanArm afterSwitch
  dsimp only
  split
  · exact (degrades_freqSwitch .rx s).trans (degrades_driverCall _ _ _ _)
  · exact degrades_freqSwitch .rx s

theorem degrades_setupScan (s : State) : Degrades s (setupScan s) := by
  have h := degrades_scanArm s
  unfold setupScan
  dsimp only
  generalize scanArm s = d at h ⊢
  split
  · split
    · exact h
    · exact h.trans (degrades_log _ _ _ _ (by simp) (by simp))
  · exact .refl s

/-- The registration step sets both bits of IRQREG (R63). -/
theorem setupAttach_regs (s : State) : (setupAttach s).regs = { s.regs with irqreg := ⟨true, true⟩ } := rfl

/-- What SETUP leaves (R63): GATE, IRQREG and SETUP_DONE at 1, capabilities that only fell, FAULT with bits only set,
and everything else but the draws and the commands issued as it was. -/
theorem setupBody_spec (s : State) :
    (∃ c f,
        (setupBody s).regs =
            { s.regs with
              gate := true, irqreg := ⟨true, true⟩, setupDone := true, cap := c, fault := s.regs.fault ||| f } ∧
          (c.rx = true → s.regs.cap.rx = true) ∧ (c.tx = true → s.regs.cap.tx = true)) ∧
      (setupBody s).params = s.params ∧ (setupBody s).port = s.port ∧ (setupBody s).env.clock = s.env.clock ∧
      (setupBody s).env.outq = s.env.outq ∧ (setupBody s).env.pending = s.env.pending := by
  have h := (degrades_setupBegin s).trans (degrades_setupCrc _)
  unfold setupBody
  generalize setupCrc (setupBegin s) = u at h ⊢
  have k := degrades_setupScan (setupAttach u)
  generalize setupScan (setupAttach u) = v at k ⊢
  obtain ⟨c, f, hr, h1, h2⟩ := h.regs
  obtain ⟨c', f', kr, k1, k2⟩ := k.regs
  rw [setupAttach_regs, hr] at kr
  rw [setupAttach_regs, hr] at k1 k2
  refine ⟨⟨c', f ||| f', ?_, fun hc => h1 (k1 hc), fun hc => h2 (k2 hc)⟩, k.params.trans h.params,
    k.port.trans h.port, k.clock.trans h.clock, k.outq.trans h.outq, k.pending.trans h.pending⟩
  simp [setupFinish, kr, BitVec.or_assoc]

/-- The registers no phase rule writes: IRQREG, SETUP_DONE, FAULT, ACTIVE, the marks, and CAP.rx. -/
theorem runPhase_fixed (s : State) :
    (runPhase s).regs.irqreg = s.regs.irqreg ∧ (runPhase s).regs.setupDone = s.regs.setupDone ∧
      (runPhase s).regs.fault = s.regs.fault ∧ (runPhase s).regs.active = s.regs.active ∧
      (runPhase s).regs.refused = s.regs.refused ∧ (runPhase s).regs.refusedFor = s.regs.refusedFor ∧
      (runPhase s).regs.cap.rx = s.regs.cap.rx := by
  unfold runPhase
  split
  · simp
  · simp [phSample]
  · simp [phGateOff, enterBranch]
  · simp [phTxComplete_regs]
  · simp [phRxConsume_regs]
  · simp [phPreambleArm_regs]
  · simp [phScanRearm_regs]
  · simp [phLatchClear, clearLatches]
  · simp [phGateOn, leaveBranch]
  · simp [phGuardCheck_regs]
  · obtain h | ⟨st, h⟩ := phTxAttempt_regs s
    · simp [h]
    · rw [h, transmitStarted_regs]
      refine ⟨rfl, rfl, rfl, rfl, rfl, rfl, ?_⟩
      dsimp only
      split <;> rfl

end Sys2Proof.Machine
end

