-- ==== Sys2Proof/Laws/Events.lean ====
section
/-! SUPPORT. The commands that a call behind the frequency switch, a phase rule and SETUP issue, in order, said
once. -/

namespace Sys2Proof.Machine

open Sys2Proof

/-- The commands of a call behind the frequency switch (43_frequency_switch.md R88 to R91), which returned `st`. -/
inductive SwitchedCall (s : State) (dir : Dir) (event : Status → PortEvent) (st : Status) : List PortEvent → Prop where
  /-- not split: the call alone -/
  | direct (unsplit : split s = false) : SwitchedCall s dir event st [event st]
  /-- split, and the switch failed: the call is not issued -/
  | failed (isSplit : split s = true) (fails : st ≠ statusOk) :
      SwitchedCall s dir event st [.drvSetFrequency (freqOf dir s) st]
  /-- split, and the switch succeeded -/
  | switched (isSplit : split s = true) :
      SwitchedCall s dir event st [.drvSetFrequency (freqOf dir s) statusOk, event st]

/-- The commands of `afterSwitch` for a driver call. -/
theorem afterSwitch_out (dir : Dir) (sel : Draw → Option Status) (free : Nat → Status) (event : Status → PortEvent)
    (s : State) :
    ∃ ev, (afterSwitch dir (driverCall sel free event) s).2.env.out = s.env.out ++ ev ∧
        SwitchedCall s dir event (afterSwitch dir (driverCall sel free event) s).1 ev := by
  unfold afterSwitch freqSwitch
  cases hs : split s
  · exact ⟨_, rfl, .direct hs⟩
  · simp only [if_true]
    have ho : (drvSetFrequency dir s).2.env.out =
        s.env.out ++ [.drvSetFrequency (freqOf dir s) (drvSetFrequency dir s).1] := rfl
    split
    · next h =>
      refine ⟨[.drvSetFrequency (freqOf dir s) statusOk, event _], ?_, .switched hs⟩
      rw [driverCall_out, ho, h, List.append_assoc]
      rfl
    · next h => exact ⟨_, ho, .failed hs h⟩

/-- RX_ARM in PH_PREAMBLE_ARM (R89). -/
theorem rxArm_out (s : State) :
    ∃ ev, (rxArm s).2.env.out = s.env.out ++ ev ∧
        SwitchedCall s .rx (fun st => .drvStartReceive s.params.rxMode st) (rxArm s).1 ev := by
  have h := afterSwitch_out .rx asStartReceive Config.freeStatus (fun st => .drvStartReceive s.params.rxMode st) s
  have k : rxArm s = afterSwitch .rx
      (driverCall asStartReceive Config.freeStatus fun st => .drvStartReceive s.params.rxMode st) s := by
    unfold rxArm afterSwitch
    dsimp only
    split
    · unfold drvStartReceive
      rw [(portsOnly_freqSwitch .rx s).params]
    · rfl
  rw [k]
  exact h

/-- SCAN_ARM (R90). -/
theorem scanArm_out (s : State) :
    ∃ ev, (scanArm s).2.env.out = s.env.out ++ ev ∧
        SwitchedCall s .rx (fun st => .drvStartChannelScan st) (scanArm s).1 ev :=
  afterSwitch_out _ _ _ _ s

/-- TX_START (R91). -/
theorem txStart_out (frame : List Byte) (s : State) :
    ∃ ev, (txStart frame s).2.env.out = s.env.out ++ ev ∧
        SwitchedCall s .tx (fun st => .drvStartTransmit frame st) (txStart frame s).1 ev :=
  afterSwitch_out _ _ _ _ s

/-- The commands a phase rule issues, in order (41_scheduler_tick.md, 42_scheduler_idle_branch.md). -/
inductive PhaseEvents (s : State) : Phase → List PortEvent → Prop where
  /-- none: what no phase but PH_TX_COMPLETE and PH_TX_ATTEMPT excludes -/
  | silent (p : Phase) (notComplete : p ≠ .txComplete) (notAttempt : p ≠ .txAttempt) : PhaseEvents s p []
  | completed (r : LogRecord) : PhaseEvents s .txComplete [.logEmit r]
  | readFailed (f : List Byte) (st : Status) (r : LogRecord) :
      PhaseEvents s .rxConsume [.drvReadData f st, .logEmit r]
  | unrecognized (f : List Byte) (st : Status) (a b c : Metric) (r : LogRecord) :
      PhaseEvents s .rxConsume [.drvReadData f st, .drvGetRssi a, .drvGetSnr b, .drvGetFreqError c, .logEmit r]
  | accepted (f : List Byte) (st : Status) (m : Msg) (t : Text) :
      PhaseEvents s .rxConsume [.drvReadData f st, .inqPush m, .displayShow t]
  | armed (st : Status) (ev logs : List PortEvent)
      (call : SwitchedCall s .rx (fun st => .drvStartReceive s.params.rxMode st) st ev)
      (log : logs = [] ∨ ∃ r, logs = [.logEmit r]) : PhaseEvents s .preambleArm (ev ++ logs)
  | scanned (st : Status) (ev logs : List PortEvent)
      (call : SwitchedCall s .rx (fun st => .drvStartChannelScan st) st ev)
      (log : logs = [] ∨ ∃ r, logs = [.logEmit r]) : PhaseEvents s .scanRearm (ev ++ logs)
  | nothingToSend : PhaseEvents s .txAttempt [.outqEmpty true]
  | deferred (ms : ModemStatus) (unsplit : split s = false) :
      PhaseEvents s .txAttempt [.outqEmpty false, .drvGetModemStatus ms]
  | attempted (st : Status) (probe ev logs : List PortEvent) (m : Msg) (frame : List Byte)
      (probed : (split s = true ∧ probe = []) ∨ (split s = false ∧ ∃ ms, probe = [.drvGetModemStatus ms]))
      (call : SwitchedCall s .tx (fun st => .drvStartTransmit frame st) st ev)
      (log : logs = [] ∨ ∃ r, logs = [.logEmit r]) :
      PhaseEvents s .txAttempt ([.outqEmpty false] ++ probe ++ [.outqDequeue m] ++ ev ++ logs)

/-- The commands for a frame without the prefix, in order (R76). -/
theorem logUnrecognized_out (frame : List Byte) (s : State) :
    ∃ a b c r, (logUnrecognized frame s).env.out =
      s.env.out ++ [.drvGetRssi a, .drvGetSnr b, .drvGetFreqError c, .logEmit r] := by
  have h1 : ∀ u : State, (drvGetRssi u).2.env.out = u.env.out ++ [.drvGetRssi (drvGetRssi u).1] := fun _ => rfl
  have h2 : ∀ u : State, (drvGetSnr u).2.env.out = u.env.out ++ [.drvGetSnr (drvGetSnr u).1] := fun _ => rfl
  have h3 : ∀ u : State, (drvGetFreqError u).2.env.out = u.env.out ++ [.drvGetFreqError (drvGetFreqError u).1] :=
    fun _ => rfl
  have h4 : ∀ (r : LogRecord) (u : State), (logEmit r u).env.out = u.env.out ++ [.logEmit r] := fun _ _ => rfl
  unfold logUnrecognized
  dsimp only
  rw [h4, h3, h2, h1]
  simp only [List.append_assoc, List.cons_append, List.nil_append]
  exact ⟨_, _, _, _, rfl⟩

/-- Consuming a frame issues the commands of PH_RX_CONSUME (R76). -/
theorem consumeFrame_out (s : State) :
    ∃ ev, (consumeFrame s).env.out = s.env.out ++ ev ∧ PhaseEvents s .rxConsume ev := by
  have ho : (drvReadData s).2.env.out = s.env.out ++ [.drvReadData (drvReadData s).1.1 (drvReadData s).1.2] := rfl
  unfold consumeFrame
  dsimp only
  generalize drvReadData s = d at ho ⊢
  split
  · exact ⟨_, by simp only [logEmit, emit, ho, List.append_assoc]; rfl, .readFailed _ _ _⟩
  · split
    · exact ⟨_, by simp only [acceptFrame, inqPush, displayShow, emit, ho, List.append_assoc]; rfl, .accepted _ _ _ _⟩
    · obtain ⟨a, b, c, r, h⟩ := logUnrecognized_out d.1.1 d.2
      exact ⟨_, by rw [h, ho, List.append_assoc]; rfl, .unrecognized _ _ a b c r⟩

/-- A call behind the switch leaves `split` and the frequencies as they were, for it writes no register. -/
theorem PortsOnly.cfg {s t : State} (h : PortsOnly s t) : Machine.cfg t = Machine.cfg s := by
  unfold Machine.cfg
  rw [h.regs, h.params]

theorem PortsOnly.split {s t : State} (h : PortsOnly s t) : Machine.split t = Machine.split s := by
  unfold Machine.split
  rw [h.cfg]

theorem PortsOnly.freqOf {s t : State} (h : PortsOnly s t) (dir : Dir) : Machine.freqOf dir t = Machine.freqOf dir s := by
  unfold Machine.freqOf
  rw [h.cfg]

/-- A switched call made after some commands went out, seen from the state before them. -/
theorem SwitchedCall.of_portsOnly {s t : State} (h : PortsOnly s t) {dir : Dir} {event : Status → PortEvent} {st : Status}
    {ev : List PortEvent} (k : SwitchedCall t dir event st ev) : SwitchedCall s dir event st ev := by
  cases k with
  | direct hu => exact .direct (h.split ▸ hu)
  | failed hu hf => rw [h.freqOf]; exact .failed (h.split ▸ hu) hf
  | switched hu => rw [h.freqOf]; exact .switched (h.split ▸ hu)

/-- What a transmit start that is over logs (R84). -/
theorem transmitStarted_out (st : Status) (s : State) :
    ∃ logs, (transmitStarted st s).env.out = s.env.out ++ logs ∧ (logs = [] ∨ ∃ r, logs = [.logEmit r]) := by
  unfold transmitStarted
  dsimp only
  split
  · exact ⟨[], by simp, .inl rfl⟩
  · split
    · exact ⟨_, rfl, .inr ⟨_, rfl⟩⟩
    · exact ⟨_, rfl, .inr ⟨_, rfl⟩⟩

/-- The commands of sending one message (R84). -/
theorem transmitOne_out (s : State) :
    ∃ m frame st ev logs, (transmitOne s).env.out = s.env.out ++ [.outqDequeue m] ++ ev ++ logs ∧
        SwitchedCall s .tx (fun st => .drvStartTransmit frame st) st ev ∧ (logs = [] ∨ ∃ r, logs = [.logEmit r]) := by
  have ho : (outqDequeue s).2.env.out = s.env.out ++ [.outqDequeue (outqDequeue s).1] := by
    unfold outqDequeue
    split <;> rfl
  have hp := portsOnly_outqDequeue s
  unfold transmitOne
  dsimp only
  generalize outqDequeue s = m at ho hp ⊢
  obtain ⟨ev, h1, h2⟩ := txStart_out (txFrame s m.1) m.2
  generalize txStart (txFrame s m.1) m.2 = d at h1 h2 ⊢
  obtain ⟨logs, h3, h4⟩ := transmitStarted_out d.1 d.2
  exact ⟨m.1, txFrame s m.1, d.1, ev, logs, by rw [h3, h1, ho], h2.of_portsOnly hp, h4⟩

/-- The deferral test's commands (R84). -/
theorem receiveInProgress_out (s : State) :
    ∃ probe, (receiveInProgress s).2.env.out = s.env.out ++ probe ∧
      ((split s = true ∧ probe = [] ∧ (receiveInProgress s).1 = false) ∨
        (split s = false ∧ ∃ ms, probe = [.drvGetModemStatus ms])) := by
  unfold receiveInProgress
  cases hs : split s
  · exact ⟨_, rfl, .inr ⟨rfl, _, rfl⟩⟩
  · exact ⟨[], by simp, .inl ⟨rfl, rfl, rfl⟩⟩

/-- PH_TX_ATTEMPT's commands (R84). -/
theorem phTxAttempt_out (s : State) :
    ∃ ev, (phTxAttempt s).env.out = s.env.out ++ ev ∧ PhaseEvents s .txAttempt ev := by
  have ho : (outqEmpty s).2.env.out = s.env.out ++ [.outqEmpty (outqEmpty s).1] := rfl
  have hp := portsOnly_outqEmpty s
  unfold phTxAttempt
  generalize outqEmpty s = e at ho hp ⊢
  obtain ⟨probe, h1, h2⟩ := receiveInProgress_out e.2
  have hp2 := portsOnly_receiveInProgress e.2
  rw [hp.split] at h2
  dsimp only
  generalize receiveInProgress e.2 = b at h1 h2 hp2 ⊢
  cases he : e.1
  · rw [he] at ho
    simp only [Bool.false_eq_true, if_false]
    split
    · next hb =>
      obtain ⟨_, _, hf⟩ | ⟨hs, ms, hm⟩ := h2
      · rw [hf] at hb; cases hb
      · exact ⟨_, by rw [setPhase_env, h1, ho, hm, List.append_assoc]; rfl, .deferred ms hs⟩
    · obtain ⟨m, frame, st, ev, logs, h3, h4, h5⟩ := transmitOne_out b.2
      refine ⟨_, ?_, .attempted st probe ev logs m frame ?_ (h4.of_portsOnly (hp.trans hp2)) h5⟩
      · rw [setPhase_env, h3, h1, ho]
        simp only [List.append_assoc]
      · obtain ⟨hs, hm, _⟩ | h := h2
        · exact .inl ⟨hs, hm⟩
        · exact .inr h
  · rw [he] at ho
    exact ⟨_, ho, .nothingToSend⟩

/-- The commands a phase rule issues, added after those issued before. -/
theorem runPhase_out (s : State) :
    ∃ ev, (runPhase s).env.out = s.env.out ++ ev ∧ PhaseEvents s s.regs.phase ev := by
  have silent : ∀ t : State, s.regs.phase ≠ .txComplete → s.regs.phase ≠ .txAttempt → t.env.out = s.env.out →
      ∃ ev, t.env.out = s.env.out ++ ev ∧ PhaseEvents s s.regs.phase ev :=
    fun t h1 h2 h3 => ⟨[], by simp [h3], .silent _ h1 h2⟩
  unfold runPhase
  cases hq : s.regs.phase <;> rw [hq] at silent <;> dsimp only
  case txComplete => exact ⟨_, rfl, .completed _⟩
  case rxConsume =>
    unfold phRxConsume
    dsimp only
    split
    · exact consumeFrame_out s
    · exact silent _ (by simp) (by simp) rfl
  case preambleArm =>
    unfold phPreambleArm
    split
    · unfold armReceive
      dsimp only
      obtain ⟨ev, h1, h2⟩ := rxArm_out s
      generalize rxArm s = d at h1 h2 ⊢
      split
      · exact ⟨ev ++ [], by simpa using h1, .armed d.1 ev [] h2 (.inl rfl)⟩
      · exact ⟨ev ++ [.logEmit (.rxArmFail d.1)], by simp [logEmit, emit, h1],
          .armed d.1 ev _ h2 (.inr ⟨_, rfl⟩)⟩
    · exact silent _ (by simp) (by simp) rfl
  case scanRearm =>
    unfold phScanRearm
    split
    · unfold rearmScan
      dsimp only
      obtain ⟨ev, h1, h2⟩ := scanArm_out s
      generalize scanArm s = d at h1 h2 ⊢
      split
      · exact ⟨ev ++ [], by simpa using h1, .scanned d.1 ev [] h2 (.inl rfl)⟩
      · exact ⟨ev ++ [.logEmit (.scanFail d.1)], by simp [logEmit, emit, h1],
          .scanned d.1 ev _ h2 (.inr ⟨_, rfl⟩)⟩
    · exact silent _ (by simp) (by simp) rfl
  case txAttempt => exact phTxAttempt_out s
  all_goals exact silent _ (by simp) (by simp) rfl

/-- The kind of a failing begin status, if it names one (40_setup.md R63). -/
def beginError (s : State) (st : Status) : Option ErrKind :=
  if st = statusOk then none else ErrKind.ofCode (classify s.params.classifier st)

/-- The DRV_BEGIN command of a state, with its answer (R63). -/
def beginEvent (s : State) (st : Status) : PortEvent :=
  .drvBegin (cfg s).rxFreq (cfg s).bandwidth (cfg s).spreadingFactor (cfg s).codingRate s.params.syncWord
    (cfg s).txPower (cfg s).preambleLen (cfg s).rxGain st

/-- The commands of SETUP's begin step (R63). -/
def beginEvents (s : State) (st : Status) : List PortEvent :=
  match beginError s st with
  | some k => [beginEvent s st, .logEmit (.cfgError k st)]
  | none => [beginEvent s st]

/-- The commands of SETUP's CRC step (R63). -/
def crcEvents (crc : Status) : List PortEvent :=
  if crc = statusOk then [.drvSetCrc true crc] else [.drvSetCrc true crc, .logEmit (.crcError crc)]

/-- The begin and CRC steps of SETUP: the two answers, the capabilities and FAULT, and the commands (R63). -/
theorem setupCrc_spec (s : State) :
    ∃ st crc,
      let err := beginError s st
      let fails := decide (crc ≠ statusOk)
      let t := setupCrc (setupBegin s)
      t.regs.cap =
          { rx := s.regs.cap.rx && !err.any revokesRx && !fails, tx := s.regs.cap.tx && !err.any revokesTx && !fails } ∧
        t.env.out = s.env.out ++ (beginEvents s st ++ crcEvents crc) := by
  refine ⟨(drvBegin s).1, (drvSetCrc (setupBegin s)).1, ?_⟩
  have hb : (drvBegin s).2.env.out = s.env.out ++ [beginEvent s (drvBegin s).1] := rfl
  have hr : (drvBegin s).2.regs = s.regs := rfl
  have hp : (drvBegin s).2.params = s.params := rfl
  have h1 : (setupBegin s).regs.cap =
      { rx := s.regs.cap.rx && !(beginError s (drvBegin s).1).any revokesRx
        tx := s.regs.cap.tx && !(beginError s (drvBegin s).1).any revokesTx } ∧
      (setupBegin s).env.out =
        s.env.out ++ beginEvents s (drvBegin s).1 := by
    unfold setupBegin beginError
    dsimp only
    generalize drvBegin s = d at hb hr hp ⊢
    split
    · next h => simp [hb, hr, beginEvents, beginError, h]
    · next h =>
      unfold beginFailed
      rw [hp]
      split
      · next k hk => simp [hk, hr, hb, logEmit, emit, revoke, beginEvents, beginError, h]
      · next hk => simp [hk, hr, hb, beginEvents, beginError, h]
  generalize setupBegin s = u at h1 ⊢
  have hc : (drvSetCrc u).2.env.out = u.env.out ++ [.drvSetCrc true (drvSetCrc u).1] := rfl
  have hq : (drvSetCrc u).2.regs = u.regs := rfl
  unfold setupCrc
  dsimp only
  generalize drvSetCrc u = d at hc hq ⊢
  split
  · next h => simp [hq, h1.1, h1.2, hc, h, crcEvents]
  · next h => simp [logEmit, emit, h1.2, hc, h, crcEvents]

/-- The whole of SETUP: the two answers, what the scan step issued, the capabilities left and the commands (R63). -/
theorem setupBody_out (s : State) :
    ∃ st crc scan,
      let err := beginError s st
      let fails := decide (crc ≠ statusOk)
      let rx := s.regs.cap.rx && !err.any revokesRx && !fails
      (setupBody s).env.out =
          s.env.out ++
            (beginEvents s st ++ crcEvents crc ++ [.drvAttachIrq .line0, .drvAttachIrq .line1] ++ scan) ∧
        (setupBody s).regs.cap.tx = (s.regs.cap.tx && !err.any revokesTx && !fails) ∧
        ((rx = false ∧ scan = [] ∧ (setupBody s).regs.cap.rx = false) ∨
          (rx = true ∧ ∃ a ev, SwitchedCall s .rx (fun st => .drvStartChannelScan st) a ev ∧
            ((scan = ev ∧ (setupBody s).regs.cap.rx = true) ∨
              (scan = ev ++ [.logEmit (.setupScanFail a)] ∧ (setupBody s).regs.cap.rx = false)))) := by
  obtain ⟨st, crc, h1, h2⟩ := setupCrc_spec s
  have hd := (degrades_setupBegin s).trans (degrades_setupCrc (setupBegin s))
  refine ⟨st, crc, ?_⟩
  dsimp only at h1 h2 ⊢
  generalize decide (crc ≠ statusOk) = fails at h1 h2 ⊢
  generalize beginError s st = err at h1 h2 ⊢
  unfold setupBody
  generalize setupCrc (setupBegin s) = u at h1 h2 hd ⊢
  have ha : (setupAttach u).env.out = u.env.out ++ [.drvAttachIrq .line0, .drvAttachIrq .line1] := by
    show (u.env.out ++ [.drvAttachIrq .line0]) ++ [.drvAttachIrq .line1] = _
    rw [List.append_assoc]
    rfl
  have hr : (setupAttach u).regs.cap = u.regs.cap := rfl
  have hcfg : cfg (setupAttach u) = cfg s := by
    obtain ⟨c, f, hu, _⟩ := hd.regs
    unfold cfg
    rw [show (setupAttach u).regs.active = u.regs.active from rfl, hu,
      show (setupAttach u).params = u.params from rfl, hd.params]
  generalize setupAttach u = v at ha hr hcfg ⊢
  rw [h1] at hr
  rw [h2] at ha
  cases hx : (s.regs.cap.rx && !err.any revokesRx && !fails)
  · refine ⟨[], ?_, ?_, .inl ⟨rfl, rfl, ?_⟩⟩ <;> simp [setupFinish, setupScan, hr, hx, ha]
  · obtain ⟨ev, h3, h4⟩ := scanArm_out v
    have hw := portsOnly_scanArm v
    have h5 : SwitchedCall s .rx (fun st => .drvStartChannelScan st) (scanArm v).1 ev := by
      have hsp : split v = split s := by unfold split; rw [hcfg]
      have hf : freqOf .rx v = freqOf .rx s := by unfold freqOf; rw [hcfg]
      cases h4 with
      | direct hu => exact .direct (hsp ▸ hu)
      | failed hu hk => rw [hf]; exact .failed (hsp ▸ hu) hk
      | switched hu => rw [hf]; exact .switched (hsp ▸ hu)
    have hvr : v.regs.cap.rx = true := by rw [hr]; exact hx
    generalize hsc : scanArm v = d at h3 h5 hw
    unfold setupScan
    simp only [hvr, if_true, hsc]
    by_cases hk : d.1 = statusOk
    · refine ⟨ev, ?_, ?_, .inr ⟨trivial, d.1, ev, h5, .inl ⟨rfl, ?_⟩⟩⟩
      · simp [setupFinish, hk, h3, ha]
      · simp [setupFinish, hk, hw.regs, hr]
      · simp [setupFinish, hk, hw.regs, hvr]
    · refine ⟨ev ++ [.logEmit (.setupScanFail d.1)], ?_, ?_, .inr ⟨trivial, d.1, ev, h5, .inr ⟨rfl, ?_⟩⟩⟩
      · simp [setupFinish, hk, h3, ha, logEmit, emit]
      · simp [setupFinish, hk, hw.regs, hr, logEmit]
      · simp [setupFinish, hk, logEmit]

end Sys2Proof.Machine
end

