-- ==== Sys2Proof/Laws/Exec.lean ====
section
/-! SUPPORT. What an operation can do, said once: the inversion of `exec`, and what SETUP leaves of the registers. -/

namespace Sys2Proof.Machine

open Sys2Proof Sys2Proof.Safety

/-- STEP, and the phase's own word issued by the block, run the rule of the phase that PHASE holds (R71). -/
theorem exec_runs {i : Instr} {s : State} {p : Phase} (h : Runs i s p) : exec i s = .next (runPhase s) := by
  obtain ⟨hr, rfl, hp, rfl | ⟨hi, hs⟩⟩ := h
  · simp [exec, execStep, stepRefusal, unlessRefused, hr, hp]
  · rw [hi]
    unfold runPhase
    split <;> rename_i hq <;>
      simp_all [exec, Phase.instr, phaseRefusal, unlessRefused, execPhSample, execPhGateOff, execPhTxComplete,
        execPhRxConsume, execPhPreambleArm, execPhScanRearm, execPhLatchClear, execPhGateOn, execPhGuardCheck,
        execPhTxAttempt]

/-- A command word that the block issues is not refused. -/
theorem commandRefusal_issued {s : State} (h : Issued s) : commandRefusal s = none := by
  simp [commandRefusal, h.1, h.2]

/-- An accepted SETUP is not refused. -/
theorem setupRefusal_accepted {s : State} (h : Accepted .setup s) : setupRefusal s = none := by
  obtain ⟨h1, h2, h3, h4⟩ := h
  simp [setupRefusal, h1, h2, h3, h4]

/-- An accepted TICK_BEGIN is not refused. -/
theorem tickRefusal_accepted {s : State} (h : Accepted .tickBegin s) : tickRefusal s = none := by
  obtain ⟨h1, h2, h3⟩ := h
  simp [tickRefusal, h1, h2, h3]

/-- An accepted STEP is not refused. -/
theorem stepRefusal_accepted {s : State} (h : Accepted .step s) : stepRefusal s = none := by
  obtain ⟨h1, h2⟩ := h
  simp [stepRefusal, h1, h2]

/-- Every operation answers a next state. -/
theorem exec_next (i : Instr) (s : State) : ∃ t, exec i s = .next t := by
  cases i
  case reset => exact ⟨_, rfl⟩
  all_goals
    simp only [exec]
    exact (unlessRefused_next _ _ _).elim (fun ⟨_, _, h⟩ => ⟨_, h⟩) (fun ⟨_, h⟩ => ⟨_, h⟩)

/-- What a command word issued by the block can do: it writes no register but, for DRV_ATTACH_IRQ, IRQREG; it takes at
most the head of the outbound queue, and only OUTQ_DEQUEUE does; and it adds its own command to those issued. -/
structure CommandEffect (i : Instr) (s t : State) : Prop where
  regs : t.regs = s.regs ∨ (i = .drvAttachIrq ∧ ∃ l, t.regs = { s.regs with irqreg := registerLine l s.regs.irqreg })
  params : t.params = s.params
  port : t.port = s.port
  clock : t.env.clock = s.env.clock
  pending : t.env.pending = s.env.pending
  outq : t.env.outq = s.env.outq ∨ (i = .outqDequeue ∧ t.env.outq = s.env.outq.tail)
  out : ∃ e, t.env.out = s.env.out ++ [e] ∧ e.word = encode i

/-- What an operation can do, one case for each way it ends. -/
inductive ExecCase (i : Instr) (s t : State) : Prop where
  /-- it is refused -/
  | refused (why : RefusalReason) (notReset : i ≠ .reset) (result : t = refuse why s)
  /-- RESET (R141) -/
  | reset (is : i = .reset) (result : t = s.withRegs fun _ => resetRegs)
  /-- an accepted SETUP (R63) -/
  | setup (is : i = .setup) (accepted : Accepted .setup s) (result : t = setupBody s)
  /-- an accepted TICK_BEGIN (R70) -/
  | tickBegin (is : i = .tickBegin) (accepted : Accepted .tickBegin s) (result : t = setPhase .sample s)
  /-- a phase rule (R71) -/
  | phase (p : Phase) (runs : Runs i s p) (result : t = runPhase s)
  /-- an interrupt handler of line 0 (R94) -/
  | done (is : i = .irqDone) (open' : s.regs.refused = false) (result : t = handler .line0 s)
  /-- an interrupt handler of line 1 (R95) -/
  | preamble (is : i = .irqPreamble) (open' : s.regs.refused = false) (result : t = handler .line1 s)
  /-- the word PH_IDLE issued between ticks -/
  | idle (is : i = .phIdle) (issued : Issued s) (held : s.regs.phase = .idle) (result : t = s)
  /-- a command word issued by the block -/
  | command (notInput : isInput i = false) (issued : Issued s) (effect : CommandEffect i s t)

theorem commandRefusal_none {s : State} (h : commandRefusal s = none) : Issued s := by
  unfold commandRefusal at h
  split at h
  · cases h
  · next hr =>
      split at h
      · cases h
      · next hs => exact ⟨by simpa using hr, hs⟩

theorem phaseRefusal_none {p : Phase} {s : State} (h : phaseRefusal p s = none) : Issued s ∧ s.regs.phase = p := by
  unfold phaseRefusal at h
  split at h
  · cases h
  · next hr =>
      split at h
      · cases h
      · next hs =>
          split at h
          · next hp => exact ⟨⟨by simpa using hr, hs⟩, hp⟩
          · cases h

/-- An operation that is refused or has its effect. -/
theorem unlessRefused_inv {why : Option RefusalReason} {effect : State → State} {s t : State}
    (h : unlessRefused why effect s = .next t) :
    (∃ r, why = some r ∧ t = refuse r s) ∨ (why = none ∧ t = effect s) := by
  cases why with
  | some r =>
    refine .inl ⟨r, rfl, ?_⟩
    simp only [unlessRefused, Host.Outcome.next.injEq] at h
    exact h.symm
  | none =>
    refine .inr ⟨rfl, ?_⟩
    simp only [unlessRefused, Host.Outcome.next.injEq] at h
    exact h.symm

/-- The effect of a driver command that records `event`. -/
theorem commandEffect_driverCall {α : Type} (i : Instr) (sel : Draw → Option α) (free : Nat → α) (event : α → PortEvent)
    (hw : ∀ a, (event a).word = encode i) (s : State) : CommandEffect i s (driverCall sel free event s).2 :=
  ⟨.inl rfl, rfl, rfl, rfl, rfl, .inl rfl, _, driverCall_out sel free event s, hw _⟩

/-- The effect of a one-way command. -/
theorem commandEffect_emit (i : Instr) (e : PortEvent) (hw : e.word = encode i) (s : State) :
    CommandEffect i s (emit e s) := ⟨.inl rfl, rfl, rfl, rfl, rfl, .inl rfl, e, rfl, hw⟩

/-- A command word is refused, or has its effect because the block issues it. -/
theorem command_case {i : Instr} {s t : State} {effect : State → State} (hi : isInput i = false) (hn : i ≠ .reset)
    (he : CommandEffect i s (effect s)) (h : unlessRefused (commandRefusal s) effect s = .next t) :
    ExecCase i s t := by
  obtain ⟨r, _, rfl⟩ | ⟨hc, rfl⟩ := unlessRefused_inv h
  · exact .refused r hn rfl
  · exact .command hi (commandRefusal_none hc) he

/-- A phase word is refused, or runs the phase that PHASE holds. -/
theorem phase_case {i : Instr} {p : Phase} {s t : State} {effect : State → State} (hi : i = p.instr) (hn : i ≠ .reset)
    (hp : p ≠ .idle) (he : s.regs.phase = p → effect s = runPhase s)
    (h : unlessRefused (phaseRefusal p s) effect s = .next t) : ExecCase i s t := by
  obtain ⟨r, _, rfl⟩ | ⟨hc, rfl⟩ := unlessRefused_inv h
  · exact .refused r hn rfl
  · obtain ⟨hs, hq⟩ := phaseRefusal_none hc
    exact .phase p ⟨hs.1, hq, hp, .inr ⟨hi, hs.2⟩⟩ (he hq)

/-- The inversion of `exec`: an operation ends in one of these ways. -/
theorem exec_cases {i : Instr} {s t : State} (h : exec i s = .next t) : ExecCase i s t := by
  cases i with
  | reset =>
    simp only [exec, execReset, Host.Outcome.next.injEq] at h
    exact .reset rfl h.symm
  | setup =>
    obtain ⟨r, _, rfl⟩ | ⟨hc, rfl⟩ := unlessRefused_inv (h : unlessRefused (setupRefusal s) setupBody s = _)
    · exact .refused r (by simp) rfl
    · refine .setup rfl ?_ rfl
      unfold setupRefusal at hc
      split at hc <;> try cases hc
      split at hc <;> try cases hc
      split at hc <;> try cases hc
      split at hc <;> try cases hc
      simp_all [Accepted]
  | tickBegin =>
    obtain ⟨r, _, rfl⟩ | ⟨hc, rfl⟩ := unlessRefused_inv (h : unlessRefused (tickRefusal s) (setPhase .sample) s = _)
    · exact .refused r (by simp) rfl
    · refine .tickBegin rfl ?_ rfl
      unfold tickRefusal at hc
      split at hc <;> try cases hc
      split at hc <;> try cases hc
      split at hc <;> try cases hc
      simp_all [Accepted]
  | step =>
    obtain ⟨r, _, rfl⟩ | ⟨hc, rfl⟩ := unlessRefused_inv (h : unlessRefused (stepRefusal s) runPhase s = _)
    · exact .refused r (by simp) rfl
    · unfold stepRefusal at hc
      split at hc <;> try cases hc
      split at hc <;> try cases hc
      next hr hp => exact .phase s.regs.phase ⟨by simpa using hr, rfl, hp, .inl rfl⟩ rfl
  | irqDone =>
    obtain ⟨r, _, rfl⟩ | ⟨hc, rfl⟩ := unlessRefused_inv (h : unlessRefused (irqRefusal s) (handler .line0) s = _)
    · exact .refused r (by simp) rfl
    · exact .done rfl (by simpa [irqRefusal] using hc) rfl
  | irqPreamble =>
    obtain ⟨r, _, rfl⟩ | ⟨hc, rfl⟩ := unlessRefused_inv (h : unlessRefused (irqRefusal s) (handler .line1) s = _)
    · exact .refused r (by simp) rfl
    · exact .preamble rfl (by simpa [irqRefusal] using hc) rfl
  | drvBegin =>
    exact command_case (effect := fun s => (drvBegin s).2) (by decide) (by simp)
      (commandEffect_driverCall _ _ _ _ (fun _ => rfl) s) h
  | drvSetCrc =>
    exact command_case (effect := fun s => (drvSetCrc s).2) (by decide) (by simp)
      (commandEffect_driverCall _ _ _ _ (fun _ => rfl) s) h
  | drvSetFrequency =>
    exact command_case (effect := fun s => (drvSetFrequency s.port.operands.dir s).2) (by decide) (by simp)
      (commandEffect_driverCall _ _ _ _ (fun _ => rfl) s) h
  | drvStartChannelScan =>
    exact command_case (effect := fun s => (drvStartChannelScan s).2) (by decide) (by simp)
      (commandEffect_driverCall _ _ _ _ (fun _ => rfl) s) h
  | drvStartReceive =>
    exact command_case (effect := fun s => (drvStartReceive s).2) (by decide) (by simp)
      (commandEffect_driverCall _ _ _ _ (fun _ => rfl) s) h
  | drvReadData =>
    exact command_case (effect := fun s => (drvReadData s).2) (by decide) (by simp)
      (commandEffect_driverCall _ _ _ _ (fun _ => rfl) s) h
  | drvStartTransmit =>
    exact command_case (effect := fun s => (drvStartTransmit (txFrame s s.port.operands.msg) s).2) (by decide) (by simp)
      (commandEffect_driverCall _ _ _ _ (fun _ => rfl) s) h
  | drvGetRssi =>
    exact command_case (effect := fun s => (drvGetRssi s).2) (by decide) (by simp)
      (commandEffect_driverCall _ _ _ _ (fun _ => rfl) s) h
  | drvGetSnr =>
    exact command_case (effect := fun s => (drvGetSnr s).2) (by decide) (by simp)
      (commandEffect_driverCall _ _ _ _ (fun _ => rfl) s) h
  | drvGetFreqError =>
    exact command_case (effect := fun s => (drvGetFreqError s).2) (by decide) (by simp)
      (commandEffect_driverCall _ _ _ _ (fun _ => rfl) s) h
  | drvGetModemStatus =>
    exact command_case (effect := fun s => (drvGetModemStatus s).2) (by decide) (by simp)
      (commandEffect_driverCall _ _ _ _ (fun _ => rfl) s) h
  | drvAttachIrq =>
    refine command_case (by decide) (by simp) ?_ h
    exact ⟨.inr ⟨rfl, s.port.operands.line, rfl⟩, rfl, rfl, rfl, rfl, .inl rfl, _, rfl, rfl⟩
  | outqEmpty =>
    refine command_case (effect := fun s => (outqEmpty s).2) (by decide) (by simp) ?_ h
    exact ⟨.inl rfl, rfl, rfl, rfl, rfl, .inl rfl, _, rfl, rfl⟩
  | outqDequeue =>
    refine command_case (effect := fun s => (outqDequeue s).2) (by decide) (by simp) ?_ h
    have hp := portsOnly_outqDequeue s
    refine ⟨.inl hp.regs, hp.params, hp.port, hp.clock, hp.pending, .inr ⟨rfl, outqDequeue_outq s⟩, ?_⟩
    unfold outqDequeue
    split <;> exact ⟨_, rfl, rfl⟩
  | inqPush => exact command_case (by decide) (by simp) (commandEffect_emit _ _ rfl s) h
  | displayShow => exact command_case (by decide) (by simp) (commandEffect_emit _ _ rfl s) h
  | logEmit => exact command_case (by decide) (by simp) (commandEffect_emit _ _ rfl s) h
  | phIdle =>
    obtain ⟨r, _, rfl⟩ | ⟨hc, rfl⟩ :=
      unlessRefused_inv (why := phaseRefusal .idle s) (effect := fun s => s) (s := s) h
    · exact .refused r (by simp) rfl
    · obtain ⟨hs, hq⟩ := phaseRefusal_none hc
      exact .idle rfl hs hq rfl
  | phSample => exact phase_case (p := .sample) rfl (by simp) (by simp) (fun e => by simp [runPhase, e]) h
  | phGateOff => exact phase_case (p := .gateOff) rfl (by simp) (by simp) (fun e => by simp [runPhase, e]) h
  | phTxComplete => exact phase_case (p := .txComplete) rfl (by simp) (by simp) (fun e => by simp [runPhase, e]) h
  | phRxConsume => exact phase_case (p := .rxConsume) rfl (by simp) (by simp) (fun e => by simp [runPhase, e]) h
  | phPreambleArm => exact phase_case (p := .preambleArm) rfl (by simp) (by simp) (fun e => by simp [runPhase, e]) h
  | phScanRearm => exact phase_case (p := .scanRearm) rfl (by simp) (by simp) (fun e => by simp [runPhase, e]) h
  | phLatchClear => exact phase_case (p := .latchClear) rfl (by simp) (by simp) (fun e => by simp [runPhase, e]) h
  | phGateOn => exact phase_case (p := .gateOn) rfl (by simp) (by simp) (fun e => by simp [runPhase, e]) h
  | phGuardCheck => exact phase_case (p := .guardCheck) rfl (by simp) (by simp) (fun e => by simp [runPhase, e]) h
  | phTxAttempt => exact phase_case (p := .txAttempt) rfl (by simp) (by simp) (fun e => by simp [runPhase, e]) h

end Sys2Proof.Machine
end

