-- ==== Sys2Proof/Laws/PerInstr.lean ====
section
/-! SUPPORT. What holds of every operation as syntax, one lemma for each constructor of `Instr`. -/

namespace Sys2Proof.Laws.WordClass

open Sys2Proof Sys2Proof.Safety

/-- The word of an operation decodes to it, it stands in one of the five classes of spec/30_encoding.md R46, it comes in
as an input exactly when its class is 0 or 1, and it names a phase exactly when its class is 4. -/
def Statement (i : Instr) : Prop :=
  decode (encode i) = .op i ∧ i.opClass ≠ .reserved ∧
    (isInput i = true ↔ i.opClass = .control ∨ i.opClass = .interrupt) ∧
    (isInput i = true ↔ i.opClass.side = .input) ∧ (i.phase?.isSome = true ↔ i.opClass = .phase)

theorem reset : Statement .reset := by unfold Statement; decide
theorem setup : Statement .setup := by unfold Statement; decide
theorem tickBegin : Statement .tickBegin := by unfold Statement; decide
theorem step : Statement .step := by unfold Statement; decide
theorem irqDone : Statement .irqDone := by unfold Statement; decide
theorem irqPreamble : Statement .irqPreamble := by unfold Statement; decide
theorem drvBegin : Statement .drvBegin := by unfold Statement; decide
theorem drvSetCrc : Statement .drvSetCrc := by unfold Statement; decide
theorem drvSetFrequency : Statement .drvSetFrequency := by unfold Statement; decide
theorem drvStartChannelScan : Statement .drvStartChannelScan := by unfold Statement; decide
theorem drvStartReceive : Statement .drvStartReceive := by unfold Statement; decide
theorem drvReadData : Statement .drvReadData := by unfold Statement; decide
theorem drvStartTransmit : Statement .drvStartTransmit := by unfold Statement; decide
theorem drvGetRssi : Statement .drvGetRssi := by unfold Statement; decide
theorem drvGetSnr : Statement .drvGetSnr := by unfold Statement; decide
theorem drvGetFreqError : Statement .drvGetFreqError := by unfold Statement; decide
theorem drvGetModemStatus : Statement .drvGetModemStatus := by unfold Statement; decide
theorem drvAttachIrq : Statement .drvAttachIrq := by unfold Statement; decide
theorem outqEmpty : Statement .outqEmpty := by unfold Statement; decide
theorem outqDequeue : Statement .outqDequeue := by unfold Statement; decide
theorem inqPush : Statement .inqPush := by unfold Statement; decide
theorem displayShow : Statement .displayShow := by unfold Statement; decide
theorem logEmit : Statement .logEmit := by unfold Statement; decide
theorem phIdle : Statement .phIdle := by unfold Statement; decide
theorem phSample : Statement .phSample := by unfold Statement; decide
theorem phGateOff : Statement .phGateOff := by unfold Statement; decide
theorem phTxComplete : Statement .phTxComplete := by unfold Statement; decide
theorem phRxConsume : Statement .phRxConsume := by unfold Statement; decide
theorem phPreambleArm : Statement .phPreambleArm := by unfold Statement; decide
theorem phScanRearm : Statement .phScanRearm := by unfold Statement; decide
theorem phLatchClear : Statement .phLatchClear := by unfold Statement; decide
theorem phGateOn : Statement .phGateOn := by unfold Statement; decide
theorem phGuardCheck : Statement .phGuardCheck := by unfold Statement; decide
theorem phTxAttempt : Statement .phTxAttempt := by unfold Statement; decide

end Sys2Proof.Laws.WordClass
end

