-- ==== Sys2Proof/Tests/Slice0.lean ====
section
/-! SUPPORT. Small tests, each about one step or one word, with results taken from the vectors of
spec/95_test_vectors.md (the ids S1, H6, … are its ids); the smoke tests of the well-formedness checks; and for every
statement with hypotheses a concrete state that meets them. -/

namespace Sys2Proof.Tests

open Sys2Proof Sys2Proof.Machine Sys2Proof.Safety

/-- The parameters of 95_test_vectors.md "Conventions"; frequency A is 1, frequency B is 2. -/
def params (isSplit : Bool) : Params :=
  { slot0 := ⟨⟨1⟩, if isSplit then ⟨2⟩ else ⟨1⟩, ⟨11⟩, ⟨12⟩, ⟨13⟩, ⟨14⟩, ⟨15⟩, 250, ⟨16⟩⟩
    slot1 := ⟨⟨3⟩, ⟨4⟩, ⟨21⟩, ⟨22⟩, ⟨23⟩, ⟨24⟩, ⟨25⟩, 9, ⟨26⟩⟩
    syncWord := ⟨31⟩, rxMode := ⟨32⟩, rxBusyMask := 1, framePrefix := ⟨0x3C, 0xFF, 0x01⟩
    classifier := ⟨[(-1, 1), (-2, 2), (-3, 3), (-4, 4), (-5, 5), (-6, 6), (-7, 7)], .other⟩
    rescanAfterTx := false, txInflightOnStartFailure := false }

/-- The registers after an undegraded SETUP (vector S1), with PHASE at `p`. -/
def ready (p : Phase) : Regs := { resetRegs with irqreg := ⟨true, true⟩, setupDone := true, phase := p }

/-- A state with these registers, draws and queue, at which an input was presented. -/
def at' (r : Regs) (isSplit : Bool) (draws : List Draw) (outq : List Msg) : State :=
  { regs := r, params := params isSplit, port := ⟨.input, Operands.initial⟩
    env := { outq := outq, clock := 0, draws := draws, free := 0, pending := [], out := [] } }

/-- The same with the word at the boundary issued by the block. -/
def issued (r : Regs) (isSplit : Bool) (draws : List Draw) (outq : List Msg) : State :=
  { at' r isSplit draws outq with port := ⟨.issued, Operands.initial⟩ }

/-- The state after an operation, if there is one. -/
def result (o : Host.Outcome State Fault Refusal) : Option State :=
  match o with
  | .next s => some s
  | _ => none

/-- OBS and the commands after an operation. -/
def seen (o : Host.Outcome State Fault Refusal) : Option (BitVec 16 × List PortEvent) :=
  (result o).map fun s => (obs s.regs, s.env.out)

/-- The registers after an operation. -/
def regsAfter (o : Host.Outcome State Fault Refusal) : Option Regs := (result o).map (·.regs)

/-! Decoding: every word written out from the tables of 30_encoding.md R47 to R51. -/

theorem test_decode_control :
    decode 0b00000000#8 = .op .reset ∧ decode 0b00000001#8 = .op .setup ∧ decode 0b00000010#8 = .op .tickBegin ∧
      decode 0b00000011#8 = .op .step ∧ decode 0b00000100#8 = .reserved ∧ decode 0b00011111#8 = .reserved := by decide

theorem test_decode_interrupt :
    decode 0b00100000#8 = .op .irqDone ∧ decode 0b00100001#8 = .op .irqPreamble ∧
      decode 0b00100010#8 = .reserved := by decide

theorem test_decode_driver :
    decode 0b01000000#8 = .op .drvBegin ∧ decode 0b01000001#8 = .op .drvSetCrc ∧
      decode 0b01000010#8 = .op .drvSetFrequency ∧ decode 0b01000011#8 = .op .drvStartChannelScan ∧
      decode 0b01000100#8 = .op .drvStartReceive ∧ decode 0b01000101#8 = .op .drvReadData ∧
      decode 0b01000110#8 = .op .drvStartTransmit ∧ decode 0b01000111#8 = .op .drvGetRssi ∧
      decode 0b01001000#8 = .op .drvGetSnr ∧ decode 0b01001001#8 = .op .drvGetFreqError ∧
      decode 0b01001010#8 = .op .drvGetModemStatus ∧ decode 0b01001011#8 = .op .drvAttachIrq ∧
      decode 0b01001100#8 = .reserved := by decide

theorem test_decode_collaborator :
    decode 0b01100000#8 = .op .outqEmpty ∧ decode 0b01100001#8 = .op .outqDequeue ∧
      decode 0b01100010#8 = .op .inqPush ∧ decode 0b01100011#8 = .op .displayShow ∧
      decode 0b01100100#8 = .op .logEmit ∧ decode 0b01100101#8 = .reserved := by decide

theorem test_decode_phase :
    decode 0b10000000#8 = .op .phIdle ∧ decode 0b10000001#8 = .op .phSample ∧ decode 0b10000010#8 = .op .phGateOff ∧
      decode 0b10000011#8 = .op .phTxComplete ∧ decode 0b10000100#8 = .op .phRxConsume ∧
      decode 0b10000101#8 = .op .phPreambleArm ∧ decode 0b10000110#8 = .op .phScanRearm ∧
      decode 0b10000111#8 = .op .phLatchClear ∧ decode 0b10001000#8 = .op .phGateOn ∧
      decode 0b10001001#8 = .op .phGuardCheck ∧ decode 0b10001010#8 = .op .phTxAttempt ∧
      decode 0b10001011#8 = .reserved := by decide

theorem test_decode_reserved_classes :
    decode 0b10100000#8 = .reserved ∧ decode 0b11000000#8 = .reserved ∧ decode 0b11111111#8 = .reserved := by decide

theorem test_table_word : decodeTableWord 8 0x21 = some .irqPreamble ∧ decodeTableWord 8 0x22 = none := by decide

/-- The mnemonics of the opcode table, for one word of each family. -/
theorem test_mnemonics :
    Instr.mnemonic .tickBegin = "TICK_BEGIN" ∧ Instr.mnemonic .irqDone = "IRQ_DONE" ∧
      Instr.mnemonic .drvGetFreqError = "DRV_GET_FREQ_ERROR" ∧ Instr.mnemonic .outqDequeue = "OUTQ_DEQUEUE" ∧
      Instr.mnemonic .phTxAttempt = "PH_TX_ATTEMPT" := by decide

/-- R24: PHASE holds the phase words. -/
theorem test_phase_codes : Phase.code .idle = 0x80#8 ∧ Phase.code .sample = 0x81#8 ∧ Phase.code .txAttempt = 0x8A#8 := by
  decide

/-- R58: the codes, and that 9 to 15 name no kind. -/
theorem test_err_kinds :
    ErrKind.code .freq = 1 ∧ ErrKind.code .gain = 7 ∧ ErrKind.code .other = 8 ∧ ErrKind.ofCode 0 = none ∧
      ErrKind.ofCode 9 = none ∧ ErrKind.ofCode 15 = none ∧ ErrKind.ofCode 6 = some .preamble := by decide

/-- R59: the bits of FAULT. -/
theorem test_fault_bits :
    faultBit .freq = 0x001 ∧ faultBit .gain = 0x040 ∧ faultBit .other = 0x080 ∧ faultCrc = 0x100 ∧
      faultScan = 0x200 := by decide

/-- R60: the log kinds and their severities. -/
theorem test_log_kinds :
    LogRecord.kind (.cfgError .gain (-7)) = 0x01 ∧ LogRecord.kind (.crcError (-1)) = 0x02 ∧
      LogRecord.kind (.setupScanFail (-2)) = 0x03 ∧ LogRecord.kind (.txOk 0) = 0x10 ∧
      LogRecord.kind (.txFail (-3)) = 0x11 ∧ LogRecord.kind (.txStartFail (-5)) = 0x12 ∧
      LogRecord.kind (.rxUnrecognized ⟨0⟩ ⟨0⟩ ⟨0⟩ []) = 0x20 ∧ LogRecord.kind (.rxReadFail (-4)) = 0x21 ∧
      LogRecord.kind (.rxArmFail (-4)) = 0x22 ∧ LogRecord.kind (.scanFail (-1)) = 0x23 ∧
      (LogRecord.severity (.txOk 0)).code = 0 ∧ (LogRecord.severity (.rxUnrecognized ⟨0⟩ ⟨0⟩ ⟨0⟩ [])).code = 1 ∧
      (LogRecord.severity (.scanFail (-1))).code = 2 := by decide

/-! Well-formedness: each check refuses an ill-formed term. -/

/-- A reserved word (R52) is ill formed on either side. -/
theorem test_wf_refuses_reserved :
    OpLine.wf ⟨.input, 0x04, Operands.initial, [], none⟩ = false ∧
      OpLine.wf ⟨.issued, 0x4C, Operands.initial, [], none⟩ = false := by decide

/-- An output word or a phase word presented as input (R53), and an input word issued by the block, are ill formed. -/
theorem test_wf_refuses_wrong_side :
    OpLine.wf ⟨.input, 0x40, Operands.initial, [], none⟩ = false ∧
      OpLine.wf ⟨.input, 0x81, Operands.initial, [], none⟩ = false ∧
      OpLine.wf ⟨.issued, 0x03, Operands.initial, [], none⟩ = false ∧
      OpLine.wf ⟨.input, 0x03, Operands.initial, [], none⟩ = true ∧
      OpLine.wf ⟨.issued, 0x81, Operands.initial, [], none⟩ = true := by decide

/-- A trace line that supplies a draw its word never asks for (R61) is ill formed. -/
theorem test_wf_refuses_draws_never_asked :
    TraceLine.wf ⟨.reset, [.setCrc 0], []⟩ = false ∧ TraceLine.wf ⟨.setup, [.now 1 0], []⟩ = false ∧
      TraceLine.wf ⟨.tickBegin, [.now 1 0], []⟩ = false ∧ TraceLine.wf ⟨.step, [.setCrc 0], []⟩ = false ∧
      TraceLine.wf ⟨.irqDone, [.now 1 0], []⟩ = false ∧ TraceLine.wf ⟨.irqPreamble, [.now 1 0], []⟩ = false ∧
      TraceLine.wf ⟨.tick, [.beginStatus 0], []⟩ = false ∧ TraceLine.wf ⟨.boot, [.getRssi ⟨1⟩], []⟩ = false ∧
      TraceLine.wf ⟨.irqBoth, [.now 1 0], []⟩ = false ∧ TraceLine.wf ⟨.stepTo .gateOn, [.setCrc 0], []⟩ = false ∧
      TraceLine.wf ⟨.tick, [.now 10 0, .startTransmit 0], []⟩ = true := by decide

/-- A classifyBeginStatus that maps STATUS_OK to a kind, or a failing status to OK or to no kind, breaks R58. -/
theorem test_classifier_check :
    classifierOk ⟨[(0, 1)], .other⟩ = false ∧ classifierOk ⟨[(-1, 0)], .other⟩ = false ∧
      classifierOk ⟨[(-1, 9)], .other⟩ = false ∧ classifierOk (params false).classifier = true ∧
      classify (params false).classifier (-7) = 7 ∧ classify (params false).classifier (-100) = 8 ∧
      classify (params false).classifier 0 = 0 := by decide

/-! One step each. -/

/-- The first commands of every SETUP on the parameters above, with these two answers. -/
def begun (st crc : Status) : List PortEvent × List PortEvent :=
  ([.drvBegin ⟨1⟩ ⟨11⟩ ⟨12⟩ ⟨13⟩ ⟨31⟩ ⟨14⟩ ⟨15⟩ ⟨16⟩ st], [.drvSetCrc true crc])

/-- Q9, Z1: RESET clears the mark and every register, and issues nothing. -/
theorem test_reset :
    regsAfter
        (exec .reset
          (at'
            { ready .scanRearm with
              refused := true, gate := false, latch := ⟨true, true⟩, rxbusy := true, cap := ⟨true, false⟩
              fault := 0x010 }
            false [] [])) = some State.reset.regs ∧
    seen (exec .reset (at' { ready .scanRearm with gate := false } false [] [])) = some (0x00C4, []) := by decide

/-- S1. -/
theorem test_setup_clean :
    seen (exec .setup (at' resetRegs false [.beginStatus 0, .setCrc 0, .startChannelScan 0] [])) =
      some (0x07C4, (begun 0 0).1 ++ (begun 0 0).2 ++ [.drvAttachIrq .line0, .drvAttachIrq .line1,
        .drvStartChannelScan 0]) := by decide

/-- S9: a begin failure that leaves receive alone, and a failing scan. -/
theorem test_setup_degraded :
    seen (exec .setup (at' resetRegs false [.beginStatus (-5), .setCrc 0, .startChannelScan (-3)] [])) =
        some (0x0704, (begun (-5) 0).1 ++ [.logEmit (.cfgError .power (-5))] ++ (begun (-5) 0).2 ++
          [.drvAttachIrq .line0, .drvAttachIrq .line1, .drvStartChannelScan (-3), .logEmit (.setupScanFail (-3))]) ∧
      (regsAfter (exec .setup (at' resetRegs false
        [.beginStatus (-5), .setCrc 0, .startChannelScan (-3)] []))).map (·.fault) = some 0x210 := by decide

/-- T1 and Q2: TICK_BEGIN after SETUP, and before it (RF4). -/
theorem test_tick_begin :
    regsAfter (exec .tickBegin (at' (ready .idle) false [] [])) = some (ready .sample) ∧
      regsAfter (exec .tickBegin (at' resetRegs false [] [])) =
        some { resetRegs with refused := true, refusedFor := some .rf4 } := by decide

/-- H22 by STEP, and Q1 (RF6). -/
theorem test_step :
    regsAfter (exec .step (at' { ready .guardCheck with guard := ⟨true, 1000, 500⟩ } false [.now 1500 0] [])) =
        some { ready .txAttempt with guard := ⟨false, 1000, 500⟩ } ∧
      regsAfter (exec .step (at' resetRegs false [] [])) =
        some { resetRegs with refused := true, refusedFor := some .rf6 } := by decide

/-- I2, I5, I6: the latch is set behind an open gate, and the event is dropped behind a closed one. -/
theorem test_irq_done :
    (seen (exec .irqDone (at' (ready .idle) false [] []))).map (·.1) = some 0x07C5 ∧
      regsAfter (exec .irqDone (at' { ready .rxConsume with gate := false, latch := ⟨false, true⟩ } false [] [])) =
        some { ready .rxConsume with gate := false, latch := ⟨false, true⟩ } ∧
      (regsAfter (exec .irqDone (at' { ready .gateOff with latch := ⟨false, true⟩ } false [] []))).map (·.latch) =
        some ⟨true, true⟩ := by decide

/-- I7: registration does not depend on the capabilities. -/
theorem test_irq_preamble :
    (seen (exec .irqPreamble (at' { ready .idle with cap := ⟨false, false⟩ } false [] []))).map (·.1) = some 0x0706 ∧
      regsAfter (exec .irqPreamble (at' resetRegs false [] [])) = some resetRegs := by decide

/-- The operands of DRV_BEGIN, in the order of R111. -/
theorem test_drv_begin :
    seen (exec .drvBegin (issued (ready .idle) true [.beginStatus (-7)] [])) =
      some (0x07C4, [.drvBegin ⟨1⟩ ⟨11⟩ ⟨12⟩ ⟨13⟩ ⟨31⟩ ⟨14⟩ ⟨15⟩ ⟨16⟩ (-7)]) := by decide

/-- L1-2: CRC is always requested on. -/
theorem test_drv_set_crc :
    seen (exec .drvSetCrc (issued (ready .idle) false [.setCrc (-1)] [])) =
      some (0x07C4, [.drvSetCrc true (-1)]) := by decide

/-- The frequency of the direction beside the word (R113). -/
theorem test_drv_set_frequency :
    (result (exec .drvSetFrequency { issued (ready .idle) true [.setFrequency 0] [] with
        port := ⟨.issued, { Operands.initial with dir := .tx }⟩ })).map (·.env.out) =
        some [.drvSetFrequency ⟨2⟩ 0] ∧
      (result (exec .drvSetFrequency (issued (ready .idle) true [.setFrequency 0] []))).map (·.env.out) =
        some [.drvSetFrequency ⟨1⟩ 0] := by decide

theorem test_drv_start_channel_scan :
    (result (exec .drvStartChannelScan (issued (ready .idle) false [.startChannelScan (-2)] []))).map (·.env.out) =
      some [.drvStartChannelScan (-2)] := by decide

theorem test_drv_start_receive :
    (result (exec .drvStartReceive (issued (ready .idle) false [.startReceive 0] []))).map (·.env.out) =
      some [.drvStartReceive ⟨32⟩ 0] := by decide

theorem test_drv_read_data :
    (result (exec .drvReadData (issued (ready .idle) false [.readData [0x41] (-4)] []))).map (·.env.out) =
      some [.drvReadData [0x41] (-4)] := by decide

/-- The frame carries the prefix of R34 before the encoded message. -/
theorem test_drv_start_transmit :
    (result (exec .drvStartTransmit (issued (ready .idle) false [.startTransmit 0] []))).map (·.env.out) =
      some [.drvStartTransmit (0x3C :: 0xFF :: 0x01 :: Config.encodeMsg ⟨0⟩) 0] := rfl

theorem test_drv_get_rssi :
    (result (exec .drvGetRssi (issued (ready .idle) false [.getSnr ⟨8⟩, .getRssi ⟨7⟩] []))).map
      (fun s => (s.env.out, s.env.draws)) = some ([.drvGetRssi ⟨7⟩], [.getSnr ⟨8⟩]) := by decide

theorem test_drv_get_snr :
    (result (exec .drvGetSnr (issued (ready .idle) false [.getSnr ⟨8⟩, .getSnr ⟨9⟩] []))).map
      (fun s => (s.env.out, s.env.draws)) = some ([.drvGetSnr ⟨8⟩], [.getSnr ⟨9⟩]) := by decide

theorem test_drv_get_freq_error :
    (result (exec .drvGetFreqError (issued (ready .idle) false [.getFreqError ⟨5⟩] []))).map (·.env.out) =
      some [.drvGetFreqError ⟨5⟩] := by decide

theorem test_drv_get_modem_status :
    (result (exec .drvGetModemStatus (issued (ready .idle) false [.getModemStatus 0xFFFE] []))).map (·.env.out) =
      some [.drvGetModemStatus 0xFFFE] := by decide

theorem test_drv_attach_irq :
    (result (exec .drvAttachIrq { issued resetRegs false [] [] with
        port := ⟨.issued, { Operands.initial with line := .line1 }⟩ })).map (fun s => (s.regs.irqreg, s.env.out)) =
      some (⟨false, true⟩, [.drvAttachIrq .line1]) := by decide

theorem test_outq_empty :
    (result (exec .outqEmpty (issued (ready .idle) false [] []))).map (·.env.out) = some [.outqEmpty true] ∧
      (result (exec .outqEmpty (issued (ready .idle) false [] [⟨1⟩]))).map (·.env.out) = some [.outqEmpty false] := by
  decide

theorem test_outq_dequeue :
    (result (exec .outqDequeue (issued (ready .idle) false [] [⟨1⟩, ⟨2⟩]))).map (fun s => (s.env.out, s.env.outq)) =
      some ([.outqDequeue ⟨1⟩], [⟨2⟩]) := by decide

theorem test_inq_push :
    (result (exec .inqPush (issued (ready .idle) false [] []))).map (·.env.out) =
      some [.inqPush (Config.decodeMsg [])] := rfl

theorem test_display_show :
    (result (exec .displayShow (issued (ready .idle) false [] []))).map (·.env.out) =
      some [.displayShow (Config.summary ⟨0⟩)] := rfl

theorem test_log_emit :
    (result (exec .logEmit (issued (ready .idle) false [] []))).map (·.env.out) = some [.logEmit (.txOk 0)] := by
  decide

/-- §2.1: an output word or a phase word presented as input is refused for RF2. -/
theorem test_output_word_as_input :
    regsAfter (exec .drvBegin (at' (ready .idle) false [] [])) =
        some { ready .idle with refused := true, refusedFor := some .rf2 } ∧
      regsAfter (exec .phSample (at' (ready .sample) false [] [])) =
        some { ready .sample with refused := true, refusedFor := some .rf2 } := by decide

theorem test_ph_idle : exec .phIdle (issued (ready .idle) false [] []) = .next (issued (ready .idle) false [] []) := rfl

/-- H1, H3. -/
theorem test_ph_sample :
    regsAfter (exec .phSample (issued (ready .sample) false [] [])) = some (ready .guardCheck) ∧
      regsAfter (exec .phSample (issued { ready .sample with latch := ⟨false, true⟩ } false [] [])) =
        some { ready .gateOff with latch := ⟨false, true⟩ } := by decide

/-- H4, H5. -/
theorem test_ph_gate_off :
    regsAfter (exec .phGateOff (issued { ready .gateOff with txinfl := true } false [] [])) =
        some { ready .txComplete with txinfl := true, gate := false } ∧
      regsAfter (exec .phGateOff (issued (ready .gateOff) false [] [])) =
        some { ready .rxConsume with gate := false } := by decide

/-- H6, and H7 with a failing result. -/
theorem test_ph_tx_complete :
    (result (exec .phTxComplete (issued { ready .txComplete with txinfl := true, gate := false, latch := ⟨false, true⟩ }
        false [.now 7 0] []))).map (fun s => (s.regs, s.env.out)) =
        some ({ ready .latchClear with gate := false, guard := ⟨true, 7, 500⟩ }, [.logEmit (.txOk 0)]) ∧
      (result (exec .phTxComplete (issued { ready .txComplete with txinfl := true, txres := -3 } false
        [.now 7 0] []))).map (·.env.out) = some [.logEmit (.txFail (-3))] := by decide

/-- X2 and X8 (H9 is a witness below). -/
theorem test_ph_rx_consume_rejects :
    (result (exec .phRxConsume (issued { ready .rxConsume with rxbusy := true } false
        [.readData [0x3C, 0xFF] 0, .getRssi ⟨1⟩, .getSnr ⟨2⟩, .getFreqError ⟨3⟩] []))).map
          (fun s => (s.regs.rxbusy, s.env.out)) =
        some (false, [.drvReadData [0x3C, 0xFF] 0, .drvGetRssi ⟨1⟩, .drvGetSnr ⟨2⟩, .drvGetFreqError ⟨3⟩,
          .logEmit (.rxUnrecognized ⟨1⟩ ⟨2⟩ ⟨3⟩ [0x3C, 0xFF])]) ∧
      (result (exec .phRxConsume (issued { ready .rxConsume with rxbusy := true } false
        [.readData [0x3C, 0xFF, 0x01, 0x41] (-4)] []))).map (·.env.out) =
        some [.drvReadData [0x3C, 0xFF, 0x01, 0x41] (-4), .logEmit (.rxReadFail (-4))] := by decide

/-- X4. -/
theorem test_ph_rx_consume_accepts :
    (result (exec .phRxConsume (issued { ready .rxConsume with rxbusy := true } false
      [.readData [0x3C, 0xFF, 0x01, 0x41] 0] []))).map (fun s => s.env.out) =
      some [.drvReadData [0x3C, 0xFF, 0x01, 0x41] 0, .inqPush (Config.decodeMsg [0x41]),
        .displayShow (Config.summary (Config.decodeMsg [0x41]))] := rfl

/-- H12 and H13. -/
theorem test_ph_preamble_arm :
    (result (exec .phPreambleArm (issued { ready .preambleArm with latch := ⟨false, true⟩ } false
        [.startReceive (-4)] []))).map (fun s => (s.regs.rxbusy, s.env.out)) =
        some (false, [.drvStartReceive ⟨32⟩ (-4), .logEmit (.rxArmFail (-4))]) ∧
      (result (exec .phPreambleArm (issued { ready .preambleArm with latch := ⟨false, true⟩ } true
        [.setFrequency (-8)] []))).map (fun s => (s.regs.rxbusy, s.env.out)) =
        some (false, [.drvSetFrequency ⟨1⟩ (-8), .logEmit (.rxArmFail (-8))]) := by decide

/-- H15 and H17. -/
theorem test_ph_scan_rearm :
    (result (exec .phScanRearm (issued { ready .scanRearm with rxbusy := true } false [] []))).map
        (fun s => (s.regs.phase, s.env.out)) = some (.latchClear, []) ∧
      (result (exec .phScanRearm (issued (ready .scanRearm) false [.startChannelScan (-1)] []))).map
        (fun s => (s.regs.cap, s.env.out)) =
        some (⟨true, true⟩, [.drvStartChannelScan (-1), .logEmit (.scanFail (-1))]) := by decide

/-- H19. -/
theorem test_ph_latch_clear :
    regsAfter (exec .phLatchClear (issued { ready .latchClear with gate := false, latch := ⟨true, true⟩ } false [] [])) =
      some { ready .gateOn with gate := false } := by decide

/-- H20. -/
theorem test_ph_gate_on :
    regsAfter (exec .phGateOn (issued { ready .gateOn with gate := false } false [] [])) = some (ready .idle) := by decide

/-- H21, H23. -/
theorem test_ph_guard_check :
    regsAfter (exec .phGuardCheck (issued { ready .guardCheck with guard := ⟨true, 1000, 500⟩ } false
        [.now 1499 0] [])) = some { ready .idle with guard := ⟨true, 1000, 500⟩ } ∧
      regsAfter (exec .phGuardCheck (issued { ready .guardCheck with guard := ⟨true, 1000, 500⟩, cap := ⟨true, false⟩ }
        false [.now 1500 0] [])) = some { ready .idle with guard := ⟨false, 1000, 500⟩, cap := ⟨true, false⟩ } := by
  decide

/-- A2, and A8's registers (TX_INFLIGHT_ON_START_FAILURE = true). -/
theorem test_ph_tx_attempt :
    (result (exec .phTxAttempt (issued (ready .txAttempt) false [.getModemStatus 0x0001] [⟨1⟩]))).map
        (fun s => (s.regs, s.env.out, s.env.outq)) =
        some (ready .idle, [.outqEmpty false, .drvGetModemStatus 0x0001], [⟨1⟩]) ∧
      regsAfter (exec .phTxAttempt { issued (ready .txAttempt) false [.getModemStatus 0, .startTransmit (-5)] [⟨1⟩, ⟨2⟩] with
          params := { params false with txInflightOnStartFailure := true } }) =
        some { ready .idle with cap := ⟨true, false⟩, txinfl := true, txres := -5 } := by decide

/-- A5: split, so no modem status is read, and the transmit frequency comes first. -/
theorem test_ph_tx_attempt_split :
    (result (exec .phTxAttempt (issued (ready .txAttempt) true [.setFrequency 0, .startTransmit 0] [⟨1⟩]))).map
        (fun s => s.env.out) =
      some [.outqEmpty false, .outqDequeue ⟨1⟩, .drvSetFrequency ⟨2⟩ 0,
        .drvStartTransmit (0x3C :: 0xFF :: 0x01 :: Config.encodeMsg ⟨1⟩) 0] := rfl

/-- G2 to G8, G11. -/
theorem test_guard_timer :
    guardStart 1000 500 = ⟨true, 1000, 500⟩ ∧ guardElapsed 1499 ⟨true, 1000, 500⟩ = false ∧
      guardQuery 1500 ⟨true, 1000, 500⟩ = ⟨false, 1000, 500⟩ ∧ guardElapsed 1200 ⟨false, 1000, 500⟩ = true ∧
      guardElapsed 1000 ⟨true, 1000, 0⟩ = true ∧ guardElapsed 243 ⟨true, 0xFFFFFF00, 500⟩ = false ∧
      guardElapsed 244 ⟨true, 0xFFFFFF00, 500⟩ = true ∧ guardDuration 0xFFFFFFFF = 0x1FFFFFFFE#33 := by decide

/-- V2 to V5. -/
theorem test_views :
    obs { ready .preambleArm with latch := ⟨true, true⟩, gate := false } = 0x0FC3 ∧
      obs { ready .idle with txinfl := true, rxbusy := true, guard := ⟨true, 0, 0⟩ } = 0x1FFC ∧
      obs { ready .idle with rxbusy := true, guard := ⟨true, 0, 0⟩ } = 0x17EC ∧
      obs { ready .idle with guard := ⟨true, 0, 0⟩ } = 0x27E4 := by decide

/-- The host's placement: the very next step runs the word that was placed, on its class's side. -/
theorem test_with_fetch_word :
    (result (step (State.reset.withFetchWord 8 0x20))).map (·.regs) = some State.reset.regs ∧
      (result (step (State.reset.withFetchWord 8 0x82))).map (·.regs) =
        some { State.reset.regs with gate := false, phase := .rxConsume } := by decide

/-- R62: the lines of BOOT and of a two-phase TICK (T1), with the bytes of P2's fifth line. -/
theorem test_expansion :
    lineBytes ⟨.boot, [], []⟩ State.reset = [0x00, 0x01] ∧
      lineBytes ⟨.tick, [.now 2499 0], []⟩ (at' { ready .idle with guard := ⟨true, 2000, 500⟩ } false [] []) =
        [0x02, 0x03, 0x03] := by decide

/-- The bytes of the first three lines of program P5 (95_test_vectors.md §3), up to the third line's first STEP, stepped
by hand. -/
theorem test_trace_bytes :
    traceBytes [⟨.boot, [.beginStatus (-7), .setCrc 0], []⟩, ⟨.irqPreamble, [], []⟩, ⟨.tickBegin, [], []⟩, ⟨.step, [], []⟩]
        (at' resetRegs false [] []) =
      [0x00, 0x01, 0x21, 0x02, 0x03] := by decide

/-- The draws that a trace run leaves unasked, if it ends in that error (R61). -/
def unasked (e : TraceEnd) : Option (List Draw) :=
  match e with
  | .unasked draws _ => some draws
  | _ => none

/-- A draw never asked for is an error of the trace (R61), also one that a phase asks for and this one does not. -/
theorem test_trace_error :
    unasked (runTrace [⟨.irqDone, [.now 7 0], []⟩] (at' (ready .idle) false [] [])) = some [.now 7 0] ∧
      unasked (runTrace [⟨.step, [.now 7 0, .startReceive 0], []⟩] (at' (ready .guardCheck) false [] [])) =
        some [.startReceive 0] ∧
      unasked (runTrace [⟨.step, [.now 7 0], []⟩] (at' (ready .guardCheck) false [] [])) = none := by decide

/-- A queue answer uses up the draw that gives it (95_test_vectors.md P4, line 13); a draw that gives another is never
asked for (20_memory.md R44). -/
theorem test_trace_queue_draws :
    unasked (runTrace [⟨.step, [.outqEmpty true], []⟩] (at' (ready .txAttempt) false [] [])) = none ∧
      unasked (runTrace [⟨.step, [.outqEmpty false], []⟩] (at' (ready .txAttempt) false [] [])) =
        some [.outqEmpty false] ∧
      (result (exec .outqDequeue (issued (ready .idle) false [.outqDequeue ⟨1⟩] [⟨1⟩]))).map (·.env.draws) = some [] ∧
      (result (exec .outqDequeue (issued (ready .idle) false [.outqDequeue ⟨2⟩] [⟨1⟩]))).map (·.env.draws) =
        some [.outqDequeue ⟨2⟩] := by decide

/-- STEP_TO of the phase PHASE holds is no word; its messages come in and its draws are not asked for
(notes/assumptions/19.md). -/
theorem test_step_to_here :
    lineBytes ⟨.stepTo .sample, [], []⟩ (at' (ready .sample) false [] []) = [] ∧
      (result (runLine ⟨.stepTo .sample, [.now 7 0], [⟨1⟩]⟩ (at' (ready .sample) false [] []))).map
          (fun s => (s.env.outq, s.env.draws)) =
        some ([⟨1⟩], [.now 7 0]) := by decide

/-- The names of R61. -/
theorem test_draw_names :
    [Draw.beginStatus 0, .setCrc 0, .setFrequency 0, .startChannelScan 0, .startReceive 0, .readData [] 0,
        .startTransmit 0, .getRssi ⟨0⟩, .getSnr ⟨0⟩, .getFreqError ⟨0⟩, .getModemStatus 0, .now 0 0, .outqEmpty true,
        .outqDequeue ⟨0⟩].map Draw.name =
      ["begin", "set_crc", "set_frequency", "start_channel_scan", "start_receive", "read_data", "start_transmit",
        "get_rssi", "get_snr", "get_freq_error", "get_modem_status", "now", "outq_empty", "outq_dequeue"] := by decide

/-! A concrete state and operands for the hypotheses of each statement, clause by clause. -/

/-- A machine right after RESET, with the parameters above. -/
def fresh (draws : List Draw) : State := at' resetRegs false draws []

theorem witness_AfterResetTicksAreRefused : (fresh []).regs = State.reset.regs := rfl

theorem witness_SetupResult : Accepted .setup (fresh [.beginStatus (-7)]) ∧ Accepted .setup (fresh [.setCrc (-1)]) :=
  ⟨⟨rfl, rfl, rfl, by decide⟩, rfl, rfl, rfl, by decide⟩

theorem witness_SetupCapabilities :
    ∃ t, Accepted .setup (fresh [.beginStatus (-7), .setCrc 0]) ∧
      (fresh [.beginStatus (-7), .setCrc 0]).regs.cap = ⟨true, true⟩ ∧
        exec .setup (fresh [.beginStatus (-7), .setCrc 0]) = .next t ∧ t.regs.cap = ⟨false, true⟩ :=
  ⟨_, ⟨rfl, rfl, rfl, by decide⟩, rfl, rfl, by decide⟩

/-- A fresh machine whose classifyBeginStatus breaks R58 at STATUS_OK. -/
def badClassifier : State := { fresh [] with params := { params false with classifier := ⟨[(0, 1)], .other⟩ } }

theorem witness_ClassifierLaw :
    (params false).classifier.table = [] ++ (-1, 1) :: [(-2, 2), (-3, 3), (-4, 4), (-5, 5), (-6, 6), (-7, 7)] ∧
      (∀ e ∈ (params false).classifier.table, e.1 ≠ -100) ∧
      badClassifier.regs.refused = false ∧ badClassifier.regs.setupDone = false ∧ badClassifier.regs.phase = .idle ∧
      classifierOk badClassifier.params.classifier = false :=
  ⟨rfl, by simp [params], by decide⟩

theorem witness_LegalityTable :
    isInput .tickBegin = true ∧ ¬Accepted .tickBegin (fresh []) ∧ Accepted .tickBegin (at' (ready .idle) false [] []) :=
  ⟨by decide, fun h => by simp [Accepted, fresh, at', resetRegs] at h, rfl, rfl, rfl⟩

theorem witness_RefusalReasons :
    (fresh []).regs.refused = false ∧ (fresh []).regs.setupDone = false ∧ (fresh []).regs.phase = .idle ∧
      (fresh []).port.side = .input ∧ isInput .drvBegin = false ∧ isInput .phIdle = false ∧
      (ready .sample).refused = false ∧ (ready .sample).setupDone = true ∧ (ready .sample).phase ≠ .idle := by decide

/-- The reason RF5 of SETUP before SETUP: a tick in progress that no run reaches, for the clause holds of every state. -/
theorem witness_RefusalReasons_setup_in_tick :
    ({ resetRegs with phase := .sample } : Regs).refused = false ∧
      ({ resetRegs with phase := .sample } : Regs).setupDone = false ∧
      ({ resetRegs with phase := .sample } : Regs).phase ≠ .idle := by decide

/-- A state with one line pending. -/
def waiting (w : OpWord) (r : Regs) : State :=
  { at' r false [] [] with
    env := { (at' r false [] []).env with pending := [⟨.input, w, Operands.initial, [⟨5⟩], some [.now 3 0]⟩] } }

theorem witness_ReservedWordRefused :
    (waiting 0x04 resetRegs).env.pending = [⟨.input, 0x04, Operands.initial, [⟨5⟩], some [.now 3 0]⟩] ∧
      decode 0x04#8 = .reserved ∧ decode 0x9F#8 = .reserved ∧ decode 0xA0#8 = .reserved :=
  ⟨rfl, by decide, by decide, by decide⟩

theorem witness_RefusedUntilReset : (at' { resetRegs with refused := true } false [] []).regs.refused = true := rfl

theorem witness_StepRunsTheDecodedOperation :
    (waiting 0x02 (ready .idle)).env.pending = [⟨.input, 0x02, Operands.initial, [⟨5⟩], some [.now 3 0]⟩] ∧
      decode 0x02#8 = .op .tickBegin := ⟨rfl, by decide⟩

/-- And the step that follows runs it: the tick has begun, the arrival is queued and the draws are at hand. -/
theorem test_step_takes_the_line :
    (result (step (waiting 0x02 (ready .idle)))).map (fun s => (s.regs, s.env.outq, s.env.draws, s.env.pending)) =
      some (ready .sample, [⟨5⟩], [.now 3 0], []) := by decide

theorem witness_WaitsForTheNextInput : State.reset.env.pending = [] := rfl

theorem witness_DrawsInOrder :
    (∀ x ∈ [Draw.setCrc 1], asNow x = none) ∧ asNow (.now 7 0) = some (7, 0) ∧
      (drawFrom asNow Config.freeTime ([.setCrc 1] ++ .now 7 0 :: [.now 8 0]) 4) = ((7, 0), [.setCrc 1, .now 8 0], 4) ∧
      confirmed asOutqEmpty true ([.setCrc 1] ++ .outqEmpty true :: []) = [.setCrc 1] ∧
      confirmed asOutqEmpty false ([.setCrc 1] ++ .outqEmpty true :: []) = [.setCrc 1, .outqEmpty true] :=
  ⟨by simp [asNow], rfl, by decide, by decide, by decide⟩

theorem witness_StatusCommandsResult :
    Issued (issued (ready .idle) true [] []) ∧ (issued (ready .idle) true [] []).port.operands.dir = .rx ∧
      ({ Operands.initial with dir := .tx } : Operands).dir = .tx := ⟨⟨rfl, rfl⟩, rfl, rfl⟩

theorem witness_DataCommandsResult : Issued (issued resetRegs false [.readData [] 0] []) := ⟨rfl, rfl⟩

theorem witness_AttachIrqResult :
    Issued (issued resetRegs false [] []) ∧ (issued resetRegs false [] []).port.operands.line = .line0 ∧
      ({ Operands.initial with line := .line1 } : Operands).line = .line1 := ⟨⟨rfl, rfl⟩, rfl, rfl⟩

theorem witness_CollaboratorCommandsResult :
    Issued (issued (ready .idle) false [] [⟨1⟩]) ∧ (issued (ready .idle) false [] [⟨1⟩]).env.outq = ⟨1⟩ :: [] :=
  ⟨⟨rfl, rfl⟩, rfl⟩

theorem witness_TickBeginResult : Accepted .tickBegin (at' (ready .idle) false [] []) := ⟨rfl, rfl, rfl⟩

theorem witness_StepRunsTheHeldPhase : Accepted .step (at' (ready .gateOn) false [] []) := ⟨rfl, by decide⟩

theorem witness_PhaseWordsFollowPhase :
    Issued (issued (ready .idle) false [] []) ∧ (issued (ready .idle) false [] []).regs.phase = .idle ∧
      (issued (ready .idle) false [] []).regs.phase ≠ .txAttempt := ⟨⟨rfl, rfl⟩, rfl, by decide⟩

/-- Every phase but PH_IDLE runs, by STEP and by its own word. -/
theorem witness_PhaseGraph :
    (∀ p : Phase, p ≠ .idle → Runs .step (at' (ready p) false [] []) p) ∧
      ∀ p : Phase, p ≠ .idle → Runs p.instr (issued (ready p) false [] []) p :=
  ⟨fun _ h => ⟨rfl, rfl, h, .inl rfl⟩, fun _ h => ⟨rfl, rfl, h, .inr ⟨rfl, rfl⟩⟩⟩

/-- STEP runs the phase `p` in a state with these registers, if their PHASE holds it. -/
theorem runs_at (r : Regs) (isSplit : Bool) (draws : List Draw) (outq : List Msg) (hr : r.refused = false)
    (hp : r.phase ≠ .idle) : Runs .step (at' r isSplit draws outq) r.phase := ⟨hr, rfl, hp, .inl rfl⟩

theorem witness_BranchSelection :
    Runs .step (at' { ready .sample with latch := ⟨true, false⟩ } false [] []) .sample ∧
      Runs .step (at' (ready .sample) false [] []) .sample ∧
      Runs .step (at' { ready .gateOff with txinfl := true } false [] []) .gateOff ∧
      Runs .step (at' (ready .gateOff) false [] []) .gateOff :=
  ⟨runs_at _ _ _ _ rfl (by decide), runs_at _ _ _ _ rfl (by decide), runs_at _ _ _ _ rfl (by decide),
    runs_at _ _ _ _ rfl (by decide)⟩

theorem witness_TxCompleteResult :
    Runs .step (at' { ready .txComplete with txinfl := true, gate := false } false [.now 7 0] []) .txComplete :=
  runs_at _ _ _ _ rfl (by decide)

/-- A state of PH_RX_CONSUME with a receive armed and this answer to come. -/
def consuming (frame : List Byte) (st : Status) : State :=
  at' { ready .rxConsume with rxbusy := true } false [.readData frame st] []

/-- The clauses of PH_RX_CONSUME: nothing armed (H9), a failing read (X8), two bytes and a wrong third byte (X2, X5), and
the bare prefix (X3). -/
theorem witness_RxConsumeResult :
    Runs .step (at' (ready .rxConsume) false [] []) .rxConsume ∧ (ready .rxConsume).rxbusy = false ∧
      Runs .step (consuming [0x3C, 0xFF, 0x01] (-4)) .rxConsume ∧
      (drawFrom asReadData Config.freeReadData (consuming [0x3C, 0xFF, 0x01] (-4)).env.draws 0).1.2 ≠ 0#16 ∧
      carriesPrefix (params false).framePrefix [0x3C, 0xFF] = false ∧
      carriesPrefix (params false).framePrefix [0x3C, 0xFF, 0x02, 0x41] = false ∧
      carriesPrefix (params false).framePrefix [0x3C, 0xFF, 0x01] = true ∧
      (drawFrom asReadData Config.freeReadData (consuming [0x3C, 0xFF, 0x01] 0).env.draws 0).1 =
        ([0x3C, 0xFF, 0x01], 0#16) :=
  ⟨runs_at _ _ _ _ rfl (by decide), rfl, runs_at _ _ _ _ rfl (by decide), by decide, by decide, by decide, by decide,
    by decide⟩

/-- A state of PH_PREAMBLE_ARM with the preamble latch set. -/
def arming (draws : List Draw) : State := at' { ready .preambleArm with latch := ⟨false, true⟩ } false draws []

theorem witness_PreambleArmResult :
    Runs .step (at' (ready .preambleArm) false [] []) .preambleArm ∧ Runs .step (arming []) .preambleArm ∧
      (rxArm (arming [.startReceive 0])).1 = 0#16 ∧ (rxArm (arming [.startReceive (-4)])).1 ≠ 0#16 :=
  ⟨runs_at _ _ _ _ rfl (by decide), runs_at _ _ _ _ rfl (by decide), by decide, by decide⟩

theorem witness_ScanRearmResult :
    Runs .step (at' (ready .scanRearm) false [] []) .scanRearm ∧ (ready .scanRearm).cap.rx = true ∧
      (ready .scanRearm).rxbusy = false ∧
      Runs .step (at' { ready .scanRearm with rxbusy := true } false [] []) .scanRearm ∧
      (scanArm (at' (ready .scanRearm) false [.startChannelScan 0] [])).1 = 0#16 ∧
      (scanArm (at' (ready .scanRearm) false [.startChannelScan (-1)] [])).1 ≠ 0#16 :=
  ⟨runs_at _ _ _ _ rfl (by decide), rfl, rfl, runs_at _ _ _ _ rfl (by decide), by decide, by decide⟩

theorem witness_BranchExit :
    Runs .step (at' (ready .latchClear) false [] []) .latchClear ∧ Runs .step (at' (ready .gateOn) false [] []) .gateOn :=
  ⟨runs_at _ _ _ _ rfl (by decide), runs_at _ _ _ _ rfl (by decide)⟩

/-- The clauses of PH_GUARD_CHECK meet at a difference of 500: 499 has not elapsed (H21), 500 has (H22, H23). -/
theorem witness_GuardCheckResult :
    Runs .step (at' { ready .guardCheck with guard := ⟨true, 1000, 500⟩ } false [.now 1499 0] []) .guardCheck ∧
      ¬(500 ≤ (1499 + 2 ^ 32 - 1000) % 2 ^ 32) ∧ 500 ≤ (1500 + 2 ^ 32 - 1000) % 2 ^ 32 ∧
      (ready .guardCheck).guard.run = false ∧ (ready .guardCheck).cap.tx = true ∧ (ready .guardCheck).txinfl = false ∧
      Runs .step (at' { ready .guardCheck with cap := ⟨true, false⟩ } false [.now 0 0] []) .guardCheck ∧
      Runs .step (at' { ready .guardCheck with txinfl := true } false [.now 0 0] []) .guardCheck :=
  ⟨runs_at _ _ _ _ rfl (by decide), by decide, by decide, rfl, rfl, rfl, runs_at _ _ _ _ rfl (by decide),
    runs_at _ _ _ _ rfl (by decide)⟩

/-- The clauses of PH_TX_ATTEMPT: A1, A2, A3 and A4, A6 and A8. -/
theorem witness_TxAttemptResult :
    Runs .step (at' (ready .txAttempt) false [] []) .txAttempt ∧
      Runs .step (at' (ready .txAttempt) false [.getModemStatus 1] [⟨1⟩]) .txAttempt ∧
      (1 : ModemStatus) &&& (params false).rxBusyMask ≠ 0 ∧ ¬((0xFFFE : ModemStatus) &&& (params false).rxBusyMask ≠ 0) ∧
      (cfg (at' (ready .txAttempt) false [] [])).rxFreq = (cfg (at' (ready .txAttempt) false [] [])).txFreq ∧
      (cfg (at' (ready .txAttempt) true [] [])).rxFreq ≠ (cfg (at' (ready .txAttempt) true [] [])).txFreq ∧
      (txStart [] (at' (ready .txAttempt) false [.startTransmit 0] [])).1 = 0#16 ∧
      (txStart [] (at' (ready .txAttempt) false [.startTransmit (-5)] [])).1 ≠ 0#16 ∧
      (params false).txInflightOnStartFailure = false ∧
      ({ params false with txInflightOnStartFailure := true } : Params).txInflightOnStartFailure = true :=
  ⟨runs_at _ _ _ _ rfl (by decide), runs_at _ _ _ _ rfl (by decide), by decide, by decide, by decide, by decide,
    by decide, by decide, rfl, rfl⟩

theorem witness_FreqSwitchResult :
    (cfg (at' (ready .idle) false [] [])).rxFreq = (cfg (at' (ready .idle) false [] [])).txFreq ∧
      (cfg (at' (ready .idle) true [] [])).rxFreq ≠ (cfg (at' (ready .idle) true [] [])).txFreq := by decide

/-- W3, W4, W1. -/
theorem witness_ArmsGoThroughTheSwitch :
    (freqSwitch .rx (at' (ready .idle) true [.setFrequency (-8)] [])).1 ≠ 0#16 ∧
      (freqSwitch .tx (at' (ready .idle) true [.setFrequency (-2)] [])).1 ≠ 0#16 ∧
      (freqSwitch .rx (at' (ready .idle) true [.setFrequency 0] [])).1 = 0#16 ∧
      (freqSwitch .tx (at' (ready .idle) false [] [])).1 = 0#16 := by decide

theorem witness_UnsplitNeverReprograms :
    ∃ t, exec .step (arming [.startReceive 0]) = .next t ∧ t.env.out = [.drvStartReceive ⟨32⟩ 0] ∧
      (cfg (arming [.startReceive 0])).rxFreq = (cfg (arming [.startReceive 0])).txFreq :=
  ⟨_, rfl, by decide, rfl⟩

theorem witness_SplitReprogramsBeforeUse :
    ∃ t, Runs .step (at' (ready .scanRearm) true [.setFrequency 0, .startChannelScan 0] []) .scanRearm ∧
      (cfg (at' (ready .scanRearm) true [] [])).rxFreq ≠ (cfg (at' (ready .scanRearm) true [] [])).txFreq ∧
      exec .step (at' (ready .scanRearm) true [.setFrequency 0, .startChannelScan 0] []) = .next t ∧
      t.env.out = [.drvSetFrequency ⟨1⟩ 0, .drvStartChannelScan 0] :=
  ⟨_, runs_at _ _ _ _ rfl (by decide), by decide, rfl, by decide⟩

theorem witness_CommandBudgets :
    (∃ t, exec .setup (fresh [.beginStatus 0, .setCrc 0, .startChannelScan 0]) = .next t ∧
        Accepted .setup (fresh [.beginStatus 0, .setCrc 0, .startChannelScan 0])) ∧
      ∃ t, exec .step (arming [.startReceive 0]) = .next t ∧ Runs .step (arming [.startReceive 0]) .preambleArm :=
  ⟨⟨_, rfl, rfl, rfl, rfl, by decide⟩, _, rfl, runs_at _ _ _ _ rfl (by decide)⟩

theorem witness_HandlerResult :
    (ready .idle).refused = false ∧ (ready .idle).irqreg = ⟨true, true⟩ ∧ (ready .idle).gate = true ∧
      resetRegs.irqreg = ⟨false, false⟩ ∧ ({ ready .gateOn with gate := false } : Regs).gate = false := by decide

theorem witness_EventsLostWhileGated :
    (at' { ready .scanRearm with gate := false } false [] []).regs.gate = false ∧
      ∀ i ∈ [Instr.irqDone, .irqPreamble, .irqDone], i = .irqDone ∨ i = .irqPreamble := by decide

theorem witness_SampleWindowKeepsEvents :
    (at' { ready .sample with latch := ⟨false, true⟩ } false [] []).regs.phase = .sample ∧
      ({ ready .sample with latch := ⟨false, true⟩ } : Regs).latch.pre = true := by decide

/-- G3, G4 and G5: the clauses meet at the duration. -/
theorem witness_GuardQueryResult :
    (⟨true, 1000, 500⟩ : Guard).run = true ∧ ¬(500 ≤ (1499 + 2 ^ 32 - 1000) % 2 ^ 32) ∧
      500 ≤ (1500 + 2 ^ 32 - 1000) % 2 ^ 32 ∧ (⟨false, 1000, 500⟩ : Guard).run = false := by decide

/-- G10: the least duration that never elapses. -/
theorem witness_LongGuardNeverElapses : 2 ^ 31 ≤ (0x80000000#32).toNat ∧ guardElapsed 4 (guardStart 5 (guardDuration 0x80000000)) = false := by
  decide

theorem witness_GuardSeesElapsedModulo : 1000 ≤ 1000 + 2 ^ 32 + 100 := by decide

theorem witness_ClockLaw :
    ∃ t, exec .step (at' (ready .guardCheck) false [.now 7 1] []) = .next t ∧ t.env.clock = 7 + 2 ^ 32 ∧
      (at' (ready .guardCheck) false [.now 7 1] []).env.clock = 0 := ⟨_, rfl, by decide, rfl⟩

theorem witness_QueueLaw :
    (∃ t, exec .step (at' (ready .txAttempt) false [.getModemStatus 0, .startTransmit 0] [⟨1⟩, ⟨2⟩]) = .next t ∧
        t.env.outq = [⟨2⟩]) ∧
      ∃ t, step (waiting 0x20 (ready .idle)) = .next t ∧ t.env.outq = [⟨5⟩] :=
  ⟨⟨_, rfl, rfl⟩, _, rfl, by decide⟩

theorem witness_InterruptBridgeWriters :
    (∃ t, exec .irqDone (at' (ready .idle) false [] []) = .next t ∧ t.regs.latch = ⟨true, false⟩) ∧
      (∃ t, exec .irqPreamble (at' (ready .idle) false [] []) = .next t ∧ t.regs.latch = ⟨false, true⟩) ∧
      (∃ t, exec .step (at' { ready .latchClear with latch := ⟨true, true⟩ } false [] []) = .next t ∧
        t.regs.latch = ⟨false, false⟩) ∧
      (∃ t, exec .step (at' (ready .gateOff) false [] []) = .next t ∧ t.regs.gate = false) ∧
      ∃ t, exec .step (at' { ready .gateOn with gate := false } false [] []) = .next t ∧ t.regs.gate = true :=
  ⟨⟨_, rfl, rfl⟩, ⟨_, rfl, rfl⟩, ⟨_, rfl, rfl⟩, ⟨_, rfl, rfl⟩, _, rfl, rfl⟩

theorem witness_SchedulerFlagWriters :
    (∃ t, exec .step (arming [.startReceive 0]) = .next t ∧ t.regs.rxbusy = true) ∧
      (∃ t, exec .step (consuming [] (-4)) = .next t ∧ t.regs.rxbusy = false) ∧
      (∃ t, exec .step { at' (ready .txAttempt) false [.getModemStatus 0, .startTransmit (-5)] [⟨1⟩] with
          params := { params false with txInflightOnStartFailure := true } } = .next t ∧
        t.regs.txinfl = true ∧ t.regs.txres = -5) ∧
      ∃ t, exec .step (at' { ready .txComplete with txinfl := true } false [.now 7 0] []) = .next t ∧
        t.regs.txinfl = false :=
  ⟨⟨_, rfl, by decide⟩, ⟨_, rfl, by decide⟩, ⟨_, rfl, by decide, by decide⟩, _, rfl, rfl⟩

theorem witness_CapabilityAndFaultWriters :
    (∃ t, exec .reset (fresh []) = .next t) ∧
      (∃ t, exec .setup (fresh [.beginStatus (-7), .setCrc 0]) = .next t ∧ t.regs.cap = ⟨false, true⟩ ∧
        t.regs.fault = 0x040) ∧
      ∃ t, exec .step (at' (ready .txAttempt) false [.getModemStatus 0, .startTransmit (-5)] [⟨1⟩]) = .next t ∧
        t.regs.cap.tx = false :=
  ⟨⟨_, rfl⟩, ⟨_, rfl, by decide, by decide⟩, _, rfl, by decide⟩

theorem witness_SetupAndConfigurationWriters :
    (∃ t, exec .setup (fresh [.beginStatus 0, .setCrc 0, .startChannelScan 0]) = .next t ∧ t.regs.setupDone = true) ∧
      (∃ t, exec .drvAttachIrq (issued resetRegs false [] []) = .next t ∧ t.regs.irqreg = ⟨true, false⟩) ∧
      ∃ t, exec .reset (at' { ready .idle with active := 1 } false [] []) = .next t ∧ t.regs.active = 0 :=
  ⟨⟨_, rfl, by decide⟩, ⟨_, rfl, rfl⟩, _, rfl, rfl⟩

theorem witness_GuardWriters :
    (∃ t, exec .reset (at' { ready .idle with guard := ⟨true, 1, 1⟩ } false [] []) = .next t ∧
        t.regs.guard = ⟨false, 0, 0⟩) ∧
      (∃ t, exec .step (at' { ready .txComplete with txinfl := true } false [.now 7 0] []) = .next t ∧
        t.regs.guard = ⟨true, 7, 500⟩) ∧
      ∃ t, exec .step (at' { ready .guardCheck with guard := ⟨true, 1000, 500⟩ } false [.now 1500 0] []) = .next t ∧
        t.regs.guard = ⟨false, 1000, 500⟩ := ⟨⟨_, rfl, rfl⟩, ⟨_, rfl, by decide⟩, _, rfl, by decide⟩

/-- A machine in the middle of an interrupt branch, with a preamble latched, a receive armed, and a STEP to come. -/
def inBranch : State := waiting 0x03 { ready .scanRearm with gate := false, latch := ⟨false, true⟩, rxbusy := true }

theorem inBranch_inv : BlockInv inBranch := by
  constructor <;> simp [inBranch, waiting, at', ready, resetRegs, gated]

theorem witness_StepKeepsInvariant : ∃ t, BlockInv inBranch ∧ step inBranch = .next t ∧ t.regs.phase = .latchClear :=
  ⟨_, inBranch_inv, rfl, by decide⟩

theorem witness_AttemptOnlyAfterGuard :
    ∃ t, exec .step (at' { ready .guardCheck with guard := ⟨true, 1000, 500⟩ } false [.now 1500 0] []) = .next t ∧
      t.regs.phase = .txAttempt ∧ (ready .guardCheck).phase ≠ .txAttempt := ⟨_, rfl, by decide, by decide⟩

/-- A machine with the transmit capability lost and a message queued. -/
def disabled : State := at' { ready .idle with cap := ⟨true, false⟩ } false [.now 10 0] [⟨1⟩]

theorem witness_NoTransmitOnceDisabled :
    ∃ t, BlockInv disabled ∧ disabled.regs.cap.tx = false ∧
      (∀ i ∈ [Instr.tickBegin, .step, .step], isInput i = true ∧ i ≠ .reset) ∧
      execSeq [.tickBegin, .step, .step] disabled = .next t ∧ t.regs.phase = .idle ∧ t.env.outq = [⟨1⟩] := by
  refine ⟨_, ?_, rfl, by decide, rfl, by decide, by decide⟩
  constructor <;> simp [disabled, at', ready, resetRegs, gated]

theorem witness_EveryTickReturns :
    Accepted .tickBegin (at' (ready .idle) false [] []) ∧
      (∀ i ∈ Instr.irqDone :: List.replicate 7 .step, i = .step ∨ i = .irqDone ∨ i = .irqPreamble) ∧
      7 ≤ (Instr.irqDone :: List.replicate 7 .step).count .step := ⟨⟨rfl, rfl, rfl⟩, by decide, by decide⟩

/-- T5: five phases, from a state that is accepted. -/
theorem witness_TickLength :
    Accepted .tickBegin (at' { ready .idle with latch := ⟨false, true⟩, txinfl := true } false [] []) ∧
      tickLength (at' { ready .idle with latch := ⟨false, true⟩, txinfl := true } false [] [])
        (at' (ready .idle) false [] []) = 5 := ⟨⟨rfl, rfl, rfl⟩, by decide⟩

end Sys2Proof.Tests
end

section
/-! PROOFS. What an operation can write to the registers, said once: the inversion of `exec` at the registers
(spec/10_state.md), and what the operations that always write leave there. -/

namespace Sys2Proof.Machine

open Sys2Proof Sys2Proof.Safety

/-- What an operation can write to the registers, one case for each writer of the rules R8 to R20 of spec/10_state.md:
`RegWrite i s r` says that `i` may leave the registers `r` at `s`. PHASE is left open where no writer's rule needs it. -/
inductive RegWrite (i : Instr) (s : State) : Regs → Prop where
  /-- nothing but PHASE and the marks -/
  | kept (p : Phase) (marked : Bool) (why : Option RefusalReason) :
      RegWrite i s { s.regs with phase := p, refused := marked, refusedFor := why }
  /-- every register (R141) -/
  | reset (is : i = .reset) : RegWrite i s resetRegs
  /-- GATE, IRQREG and SETUP_DONE; CAP only falls, FAULT only rises (40_setup.md R63) -/
  | setup (is : i = .setup) (c : Cap) (f : BitVec 10) (rxFalls : c.rx = true → s.regs.cap.rx = true)
      (txFalls : c.tx = true → s.regs.cap.tx = true) :
      RegWrite i s
        { s.regs with
          gate := true, irqreg := ⟨true, true⟩, setupDone := true, cap := c, fault := s.regs.fault ||| f }
  /-- LATCH.opDone (R94) -/
  | done (is : i = .irqDone) : RegWrite i s { s.regs with latch := { s.regs.latch with opDone := true } }
  /-- LATCH.pre (R95) -/
  | preamble (is : i = .irqPreamble) : RegWrite i s { s.regs with latch := { s.regs.latch with pre := true } }
  /-- one bit of IRQREG (R120) -/
  | attach (is : i = .drvAttachIrq) (issued : Issued s) (l : IrqLine) :
      RegWrite i s { s.regs with irqreg := registerLine l s.regs.irqreg }
  /-- GATE (R74) -/
  | gateOff (runs : Runs i s .gateOff) (p : Phase) : RegWrite i s { s.regs with gate := false, phase := p }
  /-- TXINFL, both latches and GUARD (R75) -/
  | txComplete (runs : Runs i s .txComplete) (t : Time) (d : Duration) (p : Phase) :
      RegWrite i s { s.regs with txinfl := false, latch := ⟨false, false⟩, guard := guardStart t d, phase := p }
  /-- RXBUSY, cleared (R76) -/
  | rxConsume (runs : Runs i s .rxConsume) (p : Phase) : RegWrite i s { s.regs with rxbusy := false, phase := p }
  /-- RXBUSY, set by a successful arm (R77) -/
  | preambleArm (runs : Runs i s .preambleArm) (armed : Bool) (p : Phase) :
      RegWrite i s { s.regs with rxbusy := s.regs.rxbusy || armed, phase := p }
  /-- both latches (R79) -/
  | latchClear (runs : Runs i s .latchClear) (p : Phase) :
      RegWrite i s { s.regs with latch := ⟨false, false⟩, phase := p }
  /-- GATE (R80) -/
  | gateOn (runs : Runs i s .gateOn) (p : Phase) : RegWrite i s { s.regs with gate := true, phase := p }
  /-- GUARD, by the query (R83) -/
  | guardCheck (runs : Runs i s .guardCheck) (t : Time) (p : Phase) :
      RegWrite i s { s.regs with guard := guardQuery t s.regs.guard, phase := p }
  /-- a transmit start that counts as in flight, with its status, and may end CAP.tx (R84) -/
  | inFlight (runs : Runs i s .txAttempt) (st : Status) (keepsTx : Bool) (p : Phase) :
      RegWrite i s
        { s.regs with
          txinfl := true, txres := st, cap := { s.regs.cap with tx := s.regs.cap.tx && keepsTx }, phase := p }
  /-- a failed transmit start that does not count as in flight (R84) -/
  | startFailed (runs : Runs i s .txAttempt) (p : Phase) :
      RegWrite i s { s.regs with cap := { s.regs.cap with tx := false }, phase := p }

/-- A change of PHASE alone keeps every register that has a writer. -/
theorem RegWrite.phaseOnly (i : Instr) (s : State) (p : Phase) : RegWrite i s { s.regs with phase := p } :=
  .kept p s.regs.refused s.regs.refusedFor

/-- An operation that writes no register. -/
theorem RegWrite.refl (i : Instr) (s : State) : RegWrite i s s.regs := .phaseOnly i s s.regs.phase

/-- What PH_TX_ATTEMPT writes (R84). -/
theorem phTxAttempt_regWrite {i : Instr} {s : State} (h : Runs i s .txAttempt) :
    RegWrite i s (phTxAttempt s).regs := by
  obtain hr | ⟨st, hr⟩ := phTxAttempt_regs s
  · rw [hr]
    exact .phaseOnly i s .idle
  · rw [hr, transmitStarted_regs]
    by_cases hst : st = statusOk
    · simpa [hst] using RegWrite.inFlight h statusOk true .idle
    · by_cases hp : s.params.txInflightOnStartFailure = true
      · simpa [hst, hp] using RegWrite.inFlight h st false .idle
      · simpa [hst, hp] using RegWrite.startFailed h .idle

/-- What a phase rule writes (R71). -/
theorem runPhase_regWrite {i : Instr} {s : State} {p : Phase} (h : Runs i s p) : RegWrite i s (runPhase s).regs := by
  have ⟨_, hp, _⟩ := h
  unfold runPhase
  cases p <;> rw [hp] <;> dsimp only
  case idle => exact .refl i s
  case sample => exact .phaseOnly i s _
  case gateOff => exact .gateOff h _
  case txComplete => exact .txComplete h _ _ _
  case rxConsume => exact phRxConsume_regs s ▸ .rxConsume h _
  case preambleArm => exact phPreambleArm_regs s ▸ .preambleArm h _ _
  case scanRearm => exact phScanRearm_regs s ▸ .phaseOnly i s _
  case latchClear => exact .latchClear h _
  case gateOn => exact .gateOn h _
  case guardCheck => exact .guardCheck h _ _
  case txAttempt => exact phTxAttempt_regWrite h

/-- The inversion of `exec` at the registers. -/
theorem exec_regWrite {i : Instr} {s t : State} (h : exec i s = .next t) : RegWrite i s t.regs := by
  cases exec_cases h with
  | refused why _ result => exact result ▸ .kept _ _ _
  | reset is result => exact result ▸ .reset is
  | setup is _ result =>
    obtain ⟨⟨c, f, hr, hrx, htx⟩, -⟩ := setupBody_spec s
    exact result ▸ hr ▸ .setup is c f hrx htx
  | tickBegin _ _ result => exact result ▸ .phaseOnly i s .sample
  | phase p runs result => exact result ▸ runPhase_regWrite runs
  | done is _ result =>
    obtain hr | ⟨-, hr⟩ := handler_regs .line0 s
    · exact result ▸ hr ▸ .refl i s
    · exact result ▸ hr ▸ .done is
  | preamble is _ result =>
    obtain hr | ⟨-, hr⟩ := handler_regs .line1 s
    · exact result ▸ hr ▸ .refl i s
    · exact result ▸ hr ▸ .preamble is
  | idle _ _ _ result => exact result ▸ .refl i s
  | command _ issued effect =>
    obtain hr | ⟨is, l, hr⟩ := effect.regs
    · exact hr ▸ .refl i s
    · exact hr ▸ .attach is issued l

/-- No operation writes the parameters (10_state.md R21). -/
theorem exec_params {i : Instr} {s t : State} (h : exec i s = .next t) : t.params = s.params := by
  cases exec_cases h with
  | refused why _ result => exact result ▸ rfl
  | reset _ result => exact result ▸ rfl
  | setup _ _ result =>
    obtain ⟨-, hp, -⟩ := setupBody_spec s
    exact result ▸ hp
  | tickBegin _ _ result => exact result ▸ rfl
  | phase _ _ result => exact result ▸ (keeps_runPhase s).params
  | done _ _ result => exact result ▸ handler_params .line0 s
  | preamble _ _ result => exact result ▸ handler_params .line1 s
  | idle _ _ _ result => exact result ▸ rfl
  | command _ _ effect => exact effect.params

/-- An accepted SETUP runs its body (R63). -/
theorem setup_result {s t : State} (ha : Accepted .setup s) (h : exec .setup s = .next t) : t = setupBody s := by
  simp only [exec, execSetup, setupRefusal_accepted ha, unlessRefused, Host.Outcome.next.injEq] at h
  exact h.symm

/-- An operation that runs a phase leaves what the phase's rule leaves (R71). -/
theorem runs_result {i : Instr} {s t : State} {p : Phase} (hr : Runs i s p) (h : exec i s = .next t) :
    t = runPhase s :=
  Host.Outcome.next.inj (h.symm.trans (exec_runs hr))

end Sys2Proof.Machine
end

section
/-! PROOFS. The writers of each register (spec/10_state.md R8 to R21), read off the inversion of `exec`. -/

namespace Sys2Proof.Machine

open Sys2Proof Sys2Proof.Safety

/-- Only IRQ_DONE sets LATCH.opDone (R8). -/
theorem RegWrite.opDone_rises {i : Instr} {s : State} {r : Regs} (h : RegWrite i s r)
    (before : s.regs.latch.opDone = false) (after : r.latch.opDone = true) : i = .irqDone := by
  cases h with
  | done is => exact is
  | reset | txComplete | latchClear => cases after
  | _ => exact absurd (before.symm.trans after) Bool.false_ne_true

/-- Only IRQ_PREAMBLE sets LATCH.pre (R8). -/
theorem RegWrite.pre_rises {i : Instr} {s : State} {r : Regs} (h : RegWrite i s r)
    (before : s.regs.latch.pre = false) (after : r.latch.pre = true) : i = .irqPreamble := by
  cases h with
  | preamble is => exact is
  | reset | txComplete | latchClear => cases after
  | _ => exact absurd (before.symm.trans after) Bool.false_ne_true

/-- An operation other than the three that clear the latches keeps a latch that is set (R8). -/
theorem RegWrite.latch_falls {i : Instr} {s : State} {r : Regs} (h : RegWrite i s r)
    (falls : s.regs.latch.opDone = true ∧ r.latch.opDone = false ∨ s.regs.latch.pre = true ∧ r.latch.pre = false) :
    i = .reset ∨ Runs i s .txComplete ∨ Runs i s .latchClear := by
  cases h with
  | reset is => exact .inl is
  | txComplete runs => exact .inr (.inl runs)
  | latchClear runs => exact .inr (.inr runs)
  | _ => simp_all

/-- Only PH_GATE_OFF closes the gate (R10). -/
theorem RegWrite.gate_falls {i : Instr} {s : State} {r : Regs} (h : RegWrite i s r) (before : s.regs.gate = true)
    (after : r.gate = false) : Runs i s .gateOff := by
  cases h with
  | gateOff runs => exact runs
  | reset | setup | gateOn => cases after
  | _ => exact absurd (after.symm.trans before) Bool.false_ne_true

/-- Only PH_GATE_ON, RESET and SETUP open the gate (R10). -/
theorem RegWrite.gate_rises {i : Instr} {s : State} {r : Regs} (h : RegWrite i s r) (before : s.regs.gate = false)
    (after : r.gate = true) : Runs i s .gateOn ∨ i = .reset ∨ i = .setup := by
  cases h with
  | gateOn runs => exact .inl runs
  | reset is => exact .inr (.inl is)
  | setup is => exact .inr (.inr is)
  | gateOff => cases after
  | _ => exact absurd (before.symm.trans after) Bool.false_ne_true

/-- Only PH_PREAMBLE_ARM sets RXBUSY (R12). -/
theorem RegWrite.rxbusy_rises {i : Instr} {s : State} {r : Regs} (h : RegWrite i s r)
    (before : s.regs.rxbusy = false) (after : r.rxbusy = true) : Runs i s .preambleArm := by
  cases h with
  | preambleArm runs => exact runs
  | reset | rxConsume => cases after
  | _ => exact absurd (before.symm.trans after) Bool.false_ne_true

/-- Only PH_RX_CONSUME and RESET clear RXBUSY; a transmit start does not (R12). -/
theorem RegWrite.rxbusy_falls {i : Instr} {s : State} {r : Regs} (h : RegWrite i s r)
    (before : s.regs.rxbusy = true) (after : r.rxbusy = false) : Runs i s .rxConsume ∨ i = .reset := by
  cases h with
  | rxConsume runs => exact .inl runs
  | reset is => exact .inr is
  | preambleArm => simp [before] at after
  | _ => exact absurd (after.symm.trans before) Bool.false_ne_true

/-- Only PH_TX_ATTEMPT sets TXINFL (R13). -/
theorem RegWrite.txinfl_rises {i : Instr} {s : State} {r : Regs} (h : RegWrite i s r)
    (before : s.regs.txinfl = false) (after : r.txinfl = true) : Runs i s .txAttempt := by
  cases h with
  | inFlight runs => exact runs
  | reset | txComplete => cases after
  | _ => exact absurd (before.symm.trans after) Bool.false_ne_true

/-- Only PH_TX_COMPLETE and RESET clear TXINFL (R13). -/
theorem RegWrite.txinfl_falls {i : Instr} {s : State} {r : Regs} (h : RegWrite i s r)
    (before : s.regs.txinfl = true) (after : r.txinfl = false) : Runs i s .txComplete ∨ i = .reset := by
  cases h with
  | txComplete runs => exact .inl runs
  | reset is => exact .inr is
  | inFlight => cases after
  | _ => exact absurd (after.symm.trans before) Bool.false_ne_true

/-- TXRES is written with TXINFL <- 1 by PH_TX_ATTEMPT, and by RESET (R14). -/
theorem RegWrite.txres_changes {i : Instr} {s : State} {r : Regs} (h : RegWrite i s r)
    (changes : r.txres ≠ s.regs.txres) : Runs i s .txAttempt ∧ r.txinfl = true ∨ i = .reset := by
  cases h with
  | inFlight runs => exact .inl ⟨runs, rfl⟩
  | reset is => exact .inr is
  | _ => exact absurd rfl changes

/-- Nothing but RESET sets CAP.rx, and only SETUP clears it (R17). -/
theorem RegWrite.capRx {i : Instr} {s : State} {r : Regs} (h : RegWrite i s r) (notReset : i ≠ .reset) :
    (r.cap.rx = true → s.regs.cap.rx = true) ∧ (s.regs.cap.rx = true → r.cap.rx = false → i = .setup) := by
  cases h with
  | reset is => exact absurd is notReset
  | setup is _ _ rxFalls => exact ⟨rxFalls, fun _ _ => is⟩
  | _ => exact ⟨id, fun before after => absurd (after.symm.trans before) Bool.false_ne_true⟩

/-- Nothing but RESET sets CAP.tx, and only SETUP and PH_TX_ATTEMPT clear it (R17). -/
theorem RegWrite.capTx {i : Instr} {s : State} {r : Regs} (h : RegWrite i s r) (notReset : i ≠ .reset) :
    (r.cap.tx = true → s.regs.cap.tx = true) ∧
      (s.regs.cap.tx = true → r.cap.tx = false → i = .setup ∨ Runs i s .txAttempt) := by
  cases h with
  | reset is => exact absurd is notReset
  | setup is _ _ _ txFalls => exact ⟨txFalls, fun _ _ => .inl is⟩
  | inFlight runs => exact ⟨fun after => (Bool.and_eq_true_iff.mp after).1, fun _ _ => .inr runs⟩
  | startFailed runs => exact ⟨nofun, fun _ _ => .inr runs⟩
  | _ => exact ⟨id, fun before after => absurd (after.symm.trans before) Bool.false_ne_true⟩

/-- Setting bits of a word keeps those that were set. -/
theorem and_or_self_eq {w : Nat} (x y : BitVec w) : x &&& (x ||| y) = x := by
  ext k hk
  simp +contextual

/-- But for RESET, FAULT keeps its bits and only SETUP changes it (R18). -/
theorem RegWrite.fault {i : Instr} {s : State} {r : Regs} (h : RegWrite i s r) (notReset : i ≠ .reset) :
    s.regs.fault &&& r.fault = s.regs.fault ∧ (r.fault ≠ s.regs.fault → i = .setup) := by
  cases h with
  | reset is => exact absurd is notReset
  | setup is => exact ⟨and_or_self_eq _ _, fun _ => is⟩
  | _ => exact ⟨BitVec.and_self, fun changes => absurd rfl changes⟩

/-- Only RESET writes ACTIVE (R19). -/
theorem RegWrite.active_eq {i : Instr} {s : State} {r : Regs} (h : RegWrite i s r) (notReset : i ≠ .reset) :
    r.active = s.regs.active := by
  cases h with
  | reset is => exact absurd is notReset
  | _ => rfl

/-- Only RESET, SETUP and the attach command write IRQREG (R11). -/
theorem RegWrite.irqreg_changes {i : Instr} {s : State} {r : Regs} (h : RegWrite i s r)
    (changes : r.irqreg ≠ s.regs.irqreg) : i = .reset ∨ i = .setup ∨ (i = .drvAttachIrq ∧ Issued s) := by
  cases h with
  | reset is => exact .inl is
  | setup is => exact .inr (.inl is)
  | attach is issued => exact .inr (.inr ⟨is, issued⟩)
  | _ => exact absurd rfl changes

/-- Only RESET and SETUP write SETUP_DONE (R20). -/
theorem RegWrite.setupDone_changes {i : Instr} {s : State} {r : Regs} (h : RegWrite i s r)
    (changes : r.setupDone ≠ s.regs.setupDone) : i = .reset ∨ i = .setup := by
  cases h with
  | reset is => exact .inl is
  | setup is => exact .inr is
  | _ => exact absurd rfl changes

/-- GUARD is written by RESET, by the start in PH_TX_COMPLETE, and by an expiring query in PH_GUARD_CHECK (R15). -/
theorem RegWrite.guard_changes {i : Instr} {s : State} {r : Regs} (h : RegWrite i s r)
    (changes : r.guard ≠ s.regs.guard) :
    i = .reset ∧ r.guard = ⟨false, 0, 0⟩ ∨
      Runs i s .txComplete ∧ r.guard.run = true ∨
      Runs i s .guardCheck ∧ s.regs.guard.run = true ∧ r.guard = { s.regs.guard with run := false } := by
  cases h with
  | reset is => exact .inl ⟨is, rfl⟩
  | txComplete runs => exact .inr (.inl ⟨runs, rfl⟩)
  | guardCheck runs t =>
    obtain same | ⟨running, -, stopped⟩ := guardQuery_cases t s.regs.guard
    · exact absurd same changes
    · exact .inr (.inr ⟨runs, running, stopped⟩)
  | _ => exact absurd rfl changes

/-- What the phases that always write a register leave in it (R74, R75, R76, R80). -/
theorem runs_regs {i : Instr} {s t : State} (h : exec i s = .next t) :
    (Runs i s .gateOff → t.regs.gate = false) ∧ (Runs i s .gateOn → t.regs.gate = true) ∧
      (Runs i s .rxConsume → t.regs.rxbusy = false) ∧ (Runs i s .txComplete → t.regs.txinfl = false) := by
  have rule : ∀ {p}, Runs i s p → t = runPhase s ∧ s.regs.phase = p := fun hr => ⟨runs_result hr h, hr.2.1⟩
  refine ⟨fun hr => ?_, fun hr => ?_, fun hr => ?_, fun hr => ?_⟩ <;> obtain ⟨rfl, hp⟩ := rule hr <;>
    simp [runPhase, hp, phGateOff, enterBranch, phGateOn, leaveBranch, phRxConsume_regs, phTxComplete_regs]

/-- A successful arm leaves RXBUSY 1 (R77). -/
theorem preambleArm_rxbusy {i : Instr} {s t : State} (h : exec i s = .next t) (hr : Runs i s .preambleArm)
    (latched : s.regs.latch.pre = true) (armed : (rxArm s).1 = statusOk) : t.regs.rxbusy = true := by
  obtain rfl := runs_result hr h
  obtain ⟨-, hp, -⟩ := hr
  simp [runPhase, hp, phPreambleArm_regs, latched, armed]

/-- An accepted SETUP leaves GATE, IRQREG and SETUP_DONE at 1 (R63). -/
theorem setup_regs {s t : State} (ha : Accepted .setup s) (h : exec .setup s = .next t) :
    t.regs.gate = true ∧ t.regs.irqreg = ⟨true, true⟩ ∧ t.regs.setupDone = true := by
  obtain rfl := setup_result ha h
  obtain ⟨⟨c, f, hr, -⟩, -⟩ := setupBody_spec s
  rw [hr]
  exact ⟨rfl, rfl, rfl⟩

/-- RESET leaves the reset registers (R141). -/
theorem reset_regs {s t : State} (h : exec .reset s = .next t) : t.regs = resetRegs := by
  rw [← Host.Outcome.next.inj h, withRegs_regs]

/-- The reset value of OBS (R28). -/
theorem obs_resetRegs : obs resetRegs = 0x00C4#16 := by decide

/-- The code of the FSM view is that of the first line of R26 that matches. -/
theorem fsm_code (r : Regs) :
    (fsm r).code =
      if r.phase = .preambleArm ∧ r.latch.pre = true then 0b001#3
      else if r.txinfl = true then 0b011#3
      else if r.rxbusy = true then 0b010#3
      else if r.guard.run = true then 0b100#3
      else 0b000#3 := by
  unfold fsm
  split_ifs <;> rfl

/-- The bits of OBS around the FSM view, each from its register (R27). -/
theorem obs_bits (r : Regs) :
    (obs r).getLsbD 0 = r.latch.opDone ∧ (obs r).getLsbD 1 = r.latch.pre ∧ (obs r).getLsbD 2 = r.gate ∧
      (obs r).getLsbD 3 = r.rxbusy ∧ (obs r).getLsbD 4 = r.txinfl ∧ (obs r).getLsbD 5 = r.guard.run ∧
      (obs r).getLsbD 6 = r.cap.rx ∧ (obs r).getLsbD 7 = r.cap.tx ∧ (obs r).getLsbD 8 = r.setupDone ∧
      (obs r).getLsbD 9 = r.irqreg.line0 ∧ (obs r).getLsbD 10 = r.irqreg.line1 ∧
      (obs r).getLsbD 14 = false ∧ (obs r).getLsbD 15 = false := by
  simp only [obs, Latch.bits, IrqReg.bits, Cap.bits, BitVec.getLsbD_append]
  simp

/-- Bits 13 to 11 of OBS are the FSM view (R27). -/
theorem obs_fsm (r : Regs) : (obs r).extractLsb' 11 3 = (fsm r).code := by
  apply BitVec.eq_of_getLsbD_eq
  intro k hk
  simp only [obs, BitVec.getLsbD_extractLsb', BitVec.getLsbD_append]
  interval_cases k <;> simp

end Sys2Proof.Machine
end

section
/-! PROOFS. The obligations about the registers and their views (spec/10_state.md). -/

namespace Sys2Proof.Proofs

open Sys2Proof Sys2Proof.Machine Sys2Proof.Safety

/-- Settles O49, a writer at a time. -/
theorem interruptBridgeWriters : Obligations.InterruptBridgeWriters := by
  intro i s t h
  have w := exec_regWrite h
  obtain ⟨gateOff, gateOn, -⟩ := runs_regs h
  refine ⟨w.opDone_rises, w.pre_rises, w.latch_falls, w.gate_falls, w.gate_rises, gateOff, ?_⟩
  rintro (hr | rfl | ⟨rfl, accepted⟩)
  · exact gateOn hr
  · rw [reset_regs h]; rfl
  · exact (setup_regs accepted h).1

/-- Settles O50, a writer at a time. -/
theorem schedulerFlagWriters : Obligations.SchedulerFlagWriters := by
  intro i s t h
  have w := exec_regWrite h
  obtain ⟨-, -, rxConsume, txComplete⟩ := runs_regs h
  refine ⟨w.rxbusy_rises, w.rxbusy_falls, w.txinfl_rises, w.txinfl_falls, w.txres_changes, preambleArm_rxbusy h,
    rxConsume, txComplete, ?_⟩
  rintro rfl
  rw [reset_regs h]
  exact ⟨rfl, rfl, rfl⟩

/-- Settles O51: RESET by its result, every other operation by what it can write. -/
theorem capabilityAndFaultWriters : Obligations.CapabilityAndFaultWriters := by
  intro i s t h
  refine ⟨?_, fun notReset => ?_⟩
  · rintro rfl
    rw [reset_regs h]
    exact ⟨rfl, rfl⟩
  · have w := exec_regWrite h
    obtain ⟨rxRises, rxFalls⟩ := w.capRx notReset
    obtain ⟨txRises, txFalls⟩ := w.capTx notReset
    exact ⟨rxRises, txRises, rxFalls, txFalls, w.fault notReset⟩

/-- Settles O52, a writer at a time. -/
theorem setupAndConfigurationWriters : Obligations.SetupAndConfigurationWriters := by
  intro i s t h
  have w := exec_regWrite h
  refine ⟨exec_params h, w.active_eq, w.irqreg_changes, w.setupDone_changes, ?_, ?_⟩
  · rintro rfl accepted
    exact (setup_regs accepted h).2
  · rintro rfl
    rw [reset_regs h]
    exact ⟨rfl, rfl, rfl⟩

/-- Settles O53 by what an operation can write to GUARD. -/
theorem guardWriters : Obligations.GuardWriters :=
  fun _ _ _ h changes => (exec_regWrite h).guard_changes changes

/-- Settles O4: the effect of RESET, and the views of the reset registers. -/
theorem resetInstructionResult : Obligations.ResetInstructionResult :=
  fun s => ⟨s.withRegs fun _ => resetRegs, rfl, rfl, rfl, obs_resetRegs⟩

/-- Settles O54, view by view. -/
theorem stateViews : Obligations.StateViews := by
  refine ⟨fun r => ⟨fsm_code r, ?_⟩, obs_resetRegs⟩
  obtain ⟨b0, b1, b2, b3, b4, b5, b6, b7, b8, b9, b10, b14, b15⟩ := obs_bits r
  exact ⟨b0, b1, b2, b3, b4, b5, b6, b7, b8, b9, b10, obs_fsm r, b14, b15⟩

end Sys2Proof.Proofs
end

section
/-! PROOFS. The ErrKinds: their codes, their FAULT bits and what they revoke (spec/30_encoding.md R58, R59,
spec/40_setup.md R64). -/

namespace Sys2Proof

open Sys2Proof.Machine

/-- POWER alone keeps CAP.rx (R64). -/
theorem revokesRx_eq_false_iff (k : ErrKind) : revokesRx k = false ↔ k = .power := by
  cases k <;> decide

/-- GAIN alone keeps CAP.tx (R64). -/
theorem revokesTx_eq_false_iff (k : ErrKind) : revokesTx k = false ↔ k = .gain := by
  cases k <;> decide

/-- The codes of the failing kinds run from 1 to 8 (R58). -/
theorem ErrKind.code_range (k : ErrKind) : 1 ≤ k.code.toNat ∧ k.code.toNat ≤ 8 := by
  cases k <;> decide

/-- A code names the kind whose code it is, and no other (R58). -/
theorem ErrKind.ofCode_eq_some_iff (c : BitVec 4) (k : ErrKind) : ErrKind.ofCode c = some k ↔ c = k.code := by
  constructor
  · intro h
    apply BitVec.eq_of_toNat_eq
    unfold ErrKind.ofCode at h
    split at h <;> cases h <;> assumption
  · rintro rfl
    cases k <;> rfl

/-- A 1 shifted up within FAULT's width is the one bit there. -/
theorem oneShiftLeft_getLsbD_iff {n : Nat} (hn : n < 10) (j : Nat) : (1#10 <<< n).getLsbD j = true ↔ j = n := by
  rw [← BitVec.twoPow_eq, BitVec.getLsbD_twoPow]
  simp [hn, eq_comm]

/-- The FAULT bit of a kind is the one below its code (R59). -/
theorem faultBit_getLsbD_iff (k : ErrKind) (j : Nat) : (faultBit k).getLsbD j = true ↔ j + 1 = k.code.toNat := by
  obtain ⟨one_le, le_eight⟩ := k.code_range
  rw [faultBit, oneShiftLeft_getLsbD_iff (by omega)]
  omega

end Sys2Proof
end

section
/-! PROOFS. The steps of SETUP as equations, each the whole next state (spec/40_setup.md R63, R65, R66). -/

namespace Sys2Proof.Machine

open Sys2Proof Sys2Proof.Safety

/-- The state after a configuration call of SETUP and what it does about the answer: the capabilities left, the FAULT
bits set, the draws left with the count of free values taken, and the commands issued. -/
def afterCall (cap : Cap) (bits : BitVec 10) (left : List Draw × Nat) (events : List PortEvent) (s : State) : State :=
  { s with
    regs := { s.regs with cap := cap, fault := s.regs.fault ||| bits }
    env := { s.env with draws := left.1, free := left.2, out := s.env.out ++ events } }

/-- One call after another: FAULT collects the bits of both, and the commands follow one another. -/
theorem afterCall_afterCall (c c' : Cap) (f f' : BitVec 10) (left left' : List Draw × Nat) (es es' : List PortEvent)
    (s : State) : afterCall c' f' left' es' (afterCall c f left es s) = afterCall c' (f ||| f') left' (es ++ es') s := by
  simp [afterCall, BitVec.or_assoc]

/-- The registration step issues its two commands after those of the calls, and sets both bits of IRQREG (R63). -/
theorem setupAttach_afterCall (c : Cap) (f : BitVec 10) (left : List Draw × Nat) (es : List PortEvent) (s : State) :
    setupAttach (afterCall c f left es s) =
      (afterCall c f left (es ++ [.drvAttachIrq .line0, .drvAttachIrq .line1]) s).withRegs fun r =>
        { r with irqreg := ⟨true, true⟩ } := by
  simp [setupAttach, drvAttachIrq, registerLine, afterCall, emit, State.withRegs]

/-- The commands of the begin step: DRV_BEGIN, and the log of a kind that the answer names (R63). -/
theorem beginEvents_eq (s : State) (st : Status) :
    beginEvents s st = beginEvent s st :: (beginError s st).toList.map fun e => .logEmit (.cfgError e st) := by
  unfold beginEvents
  cases beginError s st <;> rfl

/-- The begin step goes by the kind of error that the answer of DRV_BEGIN names, if it names one (R63). -/
theorem setupBegin_elim (s : State) :
    setupBegin s =
      (beginError s (drvBegin s).1).elim (drvBegin s).2 fun k =>
        logEmit (.cfgError k (drvBegin s).1)
          ((drvBegin s).2.withRegs fun r => { r with cap := revoke k r.cap, fault := r.fault ||| faultBit k }) := by
  have params : (drvBegin s).2.params = s.params := rfl
  unfold setupBegin beginError
  by_cases ok : (drvBegin s).1 = statusOk
  · simp only [ok, if_true, Option.elim]
  · simp only [ok, if_false, beginFailed, params]
    cases ErrKind.ofCode (classify s.params.classifier (drvBegin s).1) <;> rfl

/-- The begin step of SETUP (R63). -/
theorem setupBegin_eq (s : State) :
    let b := drawFrom asBegin Config.freeStatus s.env.draws s.env.free
    let err := beginError s b.1
    setupBegin s =
      afterCall ⟨s.regs.cap.rx && !err.any revokesRx, s.regs.cap.tx && !err.any revokesTx⟩ (err.elim 0 faultBit) b.2
        (beginEvents s b.1) s := by
  intro b err
  rw [setupBegin_elim, beginEvents_eq, show (drvBegin s).1 = b.1 from rfl]
  change err.elim _ _ = afterCall _ _ _ (_ :: err.toList.map _) s
  cases err with
  | none => simp [afterCall, drvBegin, driverCall, State.draw, emit, beginEvent, b]
  | some k => simp [afterCall, drvBegin, driverCall, State.draw, emit, logEmit, State.withRegs, revoke, beginEvent, b]

/-- The CRC step of SETUP (R63, R65). -/
theorem setupCrc_eq (s : State) :
    let k := drawFrom asSetCrc Config.freeStatus s.env.draws s.env.free
    let fails := decide (k.1 ≠ statusOk)
    setupCrc s =
      afterCall ⟨s.regs.cap.rx && !fails, s.regs.cap.tx && !fails⟩ (if fails then faultCrc else 0) k.2
        (crcEvents k.1) s := by
  intro k fails
  have call : drvSetCrc s = (k.1, afterCall s.regs.cap 0 k.2 [.drvSetCrc true k.1] s) := by
    simp [afterCall, drvSetCrc, driverCall, State.draw, emit, k]
  unfold setupCrc crcEvents
  by_cases ok : k.1 = statusOk
  · simp [call, ok, fails]
  · simp [call, ok, fails, afterCall, logEmit, emit, State.withRegs]

/-- The commands of the CRC step: DRV_SET_CRC, and the log of a failure (R63, R65). -/
theorem crcEvents_eq (crc : Status) :
    crcEvents crc = .drvSetCrc true crc :: if decide (crc ≠ statusOk) then [.logEmit (.crcError crc)] else [] := by
  unfold crcEvents
  by_cases ok : crc = statusOk <;> simp [ok]

/-- The begin, CRC and registration steps of SETUP (R63, R65): two answers, two chances to lose capabilities, and
both handlers registered. -/
theorem setupAttach_setupCrc_setupBegin (s : State) :
    let b := drawFrom asBegin Config.freeStatus s.env.draws s.env.free
    let k := drawFrom asSetCrc Config.freeStatus b.2.1 b.2.2
    let err := beginError s b.1
    let fails := decide (k.1 ≠ statusOk)
    setupAttach (setupCrc (setupBegin s)) =
      (afterCall ⟨s.regs.cap.rx && !err.any revokesRx && !fails, s.regs.cap.tx && !err.any revokesTx && !fails⟩
          (err.elim 0 faultBit ||| if fails then faultCrc else 0) k.2
          (beginEvents s b.1 ++ crcEvents k.1 ++ [.drvAttachIrq .line0, .drvAttachIrq .line1]) s).withRegs
        fun r => { r with irqreg := ⟨true, true⟩ } := by
  intro b k err fails
  rw [setupBegin_eq, setupCrc_eq, afterCall_afterCall, setupAttach_afterCall]
  rfl

/-- The scan step and the last steps of SETUP (R63, R66): the frequency switch and the scan call write no register. -/
theorem setupFinish_setupScan (u : State) :
    let a := scanArm u
    setupFinish (setupScan u) =
      if u.regs.cap.rx = false then { u with regs := { u.regs with gate := true, setupDone := true } }
      else if a.1 = statusOk then { a.2 with regs := { u.regs with gate := true, setupDone := true } }
      else
        { a.2 with
          regs :=
            { u.regs with
              cap := { u.regs.cap with rx := false }
              fault := u.regs.fault ||| faultScan
              gate := true
              setupDone := true }
          env := { a.2.env with out := a.2.env.out ++ [.logEmit (.setupScanFail a.1)] } } := by
  intro a
  have regs : a.2.regs = u.regs := (portsOnly_scanArm u).regs
  unfold setupScan
  change setupFinish (if u.regs.cap.rx then if a.1 = statusOk then a.2 else _ else u) = _
  cases u.regs.cap.rx with
  | false => rfl
  | true =>
    by_cases ok : a.1 = statusOk
    · simp [ok, setupFinish, State.withRegs, regs]
    · simp [ok, setupFinish, State.withRegs, logEmit, emit, regs, a]

/-- An accepted SETUP goes on with the state its body leaves (R63). -/
theorem exec_setup_of_accepted {s : State} (accepted : Accepted .setup s) : exec .setup s = .next (setupBody s) := by
  simp only [exec, execSetup, setupRefusal_accepted accepted, unlessRefused]

end Sys2Proof.Machine
end

section
/-! PROOFS. The obligations about SETUP (spec/40_setup.md). -/

namespace Sys2Proof.Proofs

open Sys2Proof Sys2Proof.Machine Sys2Proof.Safety

/-- Settles O7: the begin and CRC steps compose to the commands up to the scan, which the last steps follow. -/
theorem setupResult : Obligations.SetupResult := by
  intro s accepted c b k err crcFails u a
  have before : setupAttach (setupCrc (setupBegin s)) = u := by
    rw [setupAttach_setupCrc_setupBegin, beginEvents_eq, crcEvents_eq]
    simp [afterCall, State.withRegs, BitVec.or_assoc, beginEvent, beginError, u, b, k, err, crcFails, c]
  rw [exec_setup_of_accepted accepted, setupBody, before, setupFinish_setupScan]

/-- Settles O9, column by column of the table. -/
theorem revokeTable : Obligations.RevokeTable :=
  ⟨revokesRx_eq_false_iff, revokesTx_eq_false_iff, rfl, ErrKind.ofCode_eq_some_iff, faultBit_getLsbD_iff,
    oneShiftLeft_getLsbD_iff (by decide), oneShiftLeft_getLsbD_iff (by decide)⟩

end Sys2Proof.Proofs
end

section
/-! PROOFS. The commands of a step as one equation: what a run of port commands makes of the whole state, and what
each further command adds to it (spec/46_external_ports.md R110). -/

namespace Sys2Proof.Machine

open Sys2Proof

/-- The state after these commands: the draws left with the count of free values taken, and the commands issued. -/
def afterCommands (left : List Draw × Nat) (events : List PortEvent) (s : State) : State :=
  { s with env := { s.env with draws := left.1, free := left.2, out := s.env.out ++ events } }

/-- A driver call is the first command of a run. -/
theorem driverCall_eq {α : Type} (sel : Draw → Option α) (free : Nat → α) (event : α → PortEvent) (s : State) :
    let d := drawFrom sel free s.env.draws s.env.free
    driverCall sel free event s = (d.1, afterCommands d.2 [event d.1] s) := rfl

/-- A driver call after a run of commands takes its answer from the draws left and adds its command. -/
theorem driverCall_afterCommands {α : Type} (sel : Draw → Option α) (free : Nat → α) (event : α → PortEvent)
    (left : List Draw × Nat) (es : List PortEvent) (s : State) :
    let d := drawFrom sel free left.1 left.2
    driverCall sel free event (afterCommands left es s) = (d.1, afterCommands d.2 (es ++ [event d.1]) s) := by
  simp only [driverCall_eq, afterCommands, List.append_assoc]

/-- A one-way command after a run of commands adds itself and leaves the draws. -/
theorem emit_afterCommands (e : PortEvent) (left : List Draw × Nat) (es : List PortEvent) (s : State) :
    emit e (afterCommands left es s) = afterCommands left (es ++ [e]) s := by
  simp only [emit, afterCommands, List.append_assoc]

end Sys2Proof.Machine
end

section
/-! PROOFS. TICK_BEGIN and the phases of the interrupt branch as equations, each the whole next state
(spec/41_scheduler_tick.md R70 to R80). -/

namespace Sys2Proof.Machine

open Sys2Proof Sys2Proof.Safety

/-- TICK_BEGIN is let through only when R53 accepts it. -/
theorem tickRefusal_none {s : State} (h : tickRefusal s = none) : Accepted .tickBegin s := by
  unfold tickRefusal at h
  split_ifs at h with refused notSetUp busy
  exact ⟨by simpa using refused, by simpa using notSetUp, by simpa using busy⟩

/-- The rule of each phase, PH_IDLE having none (R71). -/
def phaseRule : Phase → State → State
  | .idle => id
  | .sample => phSample
  | .gateOff => phGateOff
  | .txComplete => phTxComplete
  | .rxConsume => phRxConsume
  | .preambleArm => phPreambleArm
  | .scanRearm => phScanRearm
  | .latchClear => phLatchClear
  | .gateOn => phGateOn
  | .guardCheck => phGuardCheck
  | .txAttempt => phTxAttempt

/-- The model runs the rule of the phase that PHASE holds. -/
theorem runPhase_eq_phaseRule (s : State) : runPhase s = phaseRule s.regs.phase s := by
  unfold runPhase
  cases s.regs.phase <;> rfl

/-- An operation that runs a phase goes on with the state that phase's rule leaves. -/
theorem exec_eq_phaseRule {i : Instr} {s : State} {p : Phase} (runs : Runs i s p) :
    exec i s = .next (phaseRule p s) := by
  have ⟨_, held, _⟩ := runs
  rw [exec_runs runs, runPhase_eq_phaseRule, held]

/-- A latch is set when one of the two is. -/
theorem Latch.any_eq_true_iff (l : Latch) : l.any = true ↔ l.opDone = true ∨ l.pre = true := Bool.or_eq_true_iff

/-- PH_SAMPLE (R73). -/
theorem phSample_eq (s : State) :
    phSample s = { s with regs := { s.regs with phase := if s.regs.latch.any then .gateOff else .guardCheck } } := rfl

/-- PH_GATE_OFF (R74). -/
theorem phGateOff_eq (s : State) :
    phGateOff s =
      { s with
        regs := { s.regs with gate := false, phase := if s.regs.txinfl then .txComplete else .rxConsume } } := rfl

/-- PH_TX_COMPLETE (R75): the one command is the log record, and the sample is the first that the draws give. -/
theorem phTxComplete_eq (s : State) :
    let n := drawFrom asNow Config.freeTime s.env.draws s.env.free
    phTxComplete s =
      { s with
        regs :=
          { s.regs with
            txinfl := false
            latch := ⟨false, false⟩
            guard := guardStart n.1.1 (guardDuration (cfg s).preambleDurationMs)
            phase := if s.params.rescanAfterTx then .scanRearm else .latchClear }
        env :=
          { s.env with
            draws := n.2.1
            free := n.2.2
            clock := advance s.env.clock n.1.1 n.1.2
            out := s.env.out ++ [.logEmit (completionRecord s.regs.txres)] } } := rfl

/-- A frame carries FRAME_PREFIX when its first three bytes are those of the parameters (R34). -/
theorem carriesPrefix_iff (p : FramePrefix) (f : List Byte) :
    carriesPrefix p f = true ↔ 3 ≤ f.length ∧ f.take 3 = [p.b0, p.b1, p.b2] := by
  rw [carriesPrefix, Bool.and_eq_true, decide_eq_true_iff, decide_eq_true_iff, prefixBytes]

/-- A frame without FRAME_PREFIX adds the three metrics in order and its log record (R76). -/
theorem logUnrecognized_afterCommands (frame : List Byte) (left : List Draw × Nat) (es : List PortEvent) (s : State) :
    let r := drawFrom asGetRssi Config.freeMetric left.1 left.2
    let n := drawFrom asGetSnr Config.freeMetric r.2.1 r.2.2
    let e := drawFrom asGetFreqError Config.freeMetric n.2.1 n.2.2
    logUnrecognized frame (afterCommands left es s) =
      afterCommands e.2
        (es ++ [.drvGetRssi r.1, .drvGetSnr n.1, .drvGetFreqError e.1, .logEmit (.rxUnrecognized r.1 n.1 e.1 frame)])
        s := by
  simp [logUnrecognized, drvGetRssi, drvGetSnr, drvGetFreqError, logEmit, driverCall_afterCommands, emit_afterCommands]

/-- A frame with FRAME_PREFIX adds the push and the display of its message (R76). -/
theorem acceptFrame_afterCommands (frame : List Byte) (left : List Draw × Nat) (es : List PortEvent) (s : State) :
    let m := Config.decodeMsg (payloadOf frame)
    acceptFrame frame (afterCommands left es s) =
      afterCommands left (es ++ [.inqPush m, .displayShow (Config.summary m)]) s := by
  simp [acceptFrame, inqPush, displayShow, emit_afterCommands]

/-- Consuming a completed receive (R76): the read, and what follows it by its answer. -/
theorem consumeFrame_eq (s : State) :
    let d := drawFrom asReadData Config.freeReadData s.env.draws s.env.free
    let read := afterCommands d.2 [.drvReadData d.1.1 d.1.2] s
    consumeFrame s =
      if d.1.2 ≠ statusOk then logEmit (.rxReadFail d.1.2) read
      else if carriesPrefix s.params.framePrefix d.1.1 then acceptFrame d.1.1 read
      else logUnrecognized d.1.1 read := rfl

/-- PH_RX_CONSUME with no receive armed (R76). -/
theorem phRxConsume_of_not_rxbusy {s : State} (idle : s.regs.rxbusy = false) :
    phRxConsume s = { s with regs := { s.regs with phase := .preambleArm } } := by
  simp [phRxConsume, idle, setPhase, State.withRegs]

/-- PH_RX_CONSUME with a receive armed (R76): RXBUSY falls after the commands that consume the frame. -/
theorem phRxConsume_of_rxbusy {s : State} {left : List Draw × Nat} {es : List PortEvent} (armed : s.regs.rxbusy = true)
    (consumed : consumeFrame s = afterCommands left es s) :
    phRxConsume s =
      { s with
        regs := { s.regs with rxbusy := false, phase := .preambleArm }
        env := { s.env with draws := left.1, free := left.2, out := s.env.out ++ es } } := by
  simp [phRxConsume, armed, consumed, setPhase, State.withRegs, afterCommands]

/-- Arming a receive (R77): RX_ARM, and by its status RXBUSY or a log record. -/
theorem armReceive_eq (s : State) :
    let a := rxArm s
    armReceive s =
      if a.1 = statusOk then { a.2 with regs := { s.regs with rxbusy := true } }
      else { a.2 with env := { a.2.env with out := a.2.env.out ++ [.logEmit (.rxArmFail a.1)] } } := by
  intro a
  rw [← (portsOnly_rxArm s).regs]
  rfl

/-- PH_PREAMBLE_ARM (R77): PHASE is written after the arm, which a set preamble latch calls for. -/
theorem phPreambleArm_eq (s : State) :
    let a := if s.regs.latch.pre then armReceive s else s
    phPreambleArm s = { a with regs := { a.regs with phase := .scanRearm } } := rfl

/-- Re-arming the scan (R78): SCAN_ARM, and a log record when it fails. -/
theorem rearmScan_eq (s : State) :
    let a := scanArm s
    rearmScan s =
      if a.1 = statusOk then a.2
      else { a.2 with env := { a.2.env with out := a.2.env.out ++ [.logEmit (.scanFail a.1)] } } := rfl

/-- PH_SCAN_REARM (R78): the scan is re-armed when receive capability is left and no receive is armed. -/
theorem phScanRearm_eq (s : State) :
    phScanRearm s =
      { (if s.regs.cap.rx && !s.regs.rxbusy then rearmScan s else s) with
        regs := { s.regs with phase := .latchClear } } := by
  rw [← phScanRearm_regs s]
  rfl

/-- PH_LATCH_CLEAR (R79). -/
theorem phLatchClear_eq (s : State) :
    phLatchClear s = { s with regs := { s.regs with latch := ⟨false, false⟩, phase := .gateOn } } := rfl

/-- PH_GATE_ON (R80). -/
theorem phGateOn_eq (s : State) : phGateOn s = { s with regs := { s.regs with gate := true, phase := .idle } } := rfl

end Sys2Proof.Machine
end

section
/-! PROOFS. The obligations about the scheduler tick (spec/41_scheduler_tick.md). -/

namespace Sys2Proof.Proofs

open Sys2Proof Sys2Proof.Machine Sys2Proof.Safety

/-- Settles O29: the read's answer decides which commands follow it. -/
theorem rxConsumeResult : Obligations.RxConsumeResult := by
  intro i s runs d r n e after carries m
  rw [exec_eq_phaseRule runs]
  refine ⟨fun idle => ?_, fun armed fails => ?_, fun armed ok foreign => ?_, fun armed ok own => ?_⟩
  · exact congrArg _ (phRxConsume_of_not_rxbusy idle)
  · refine congrArg _ (phRxConsume_of_rxbusy armed ?_)
    rw [consumeFrame_eq, if_pos fails, logEmit, emit_afterCommands]
    rfl
  · refine congrArg _ (phRxConsume_of_rxbusy armed ?_)
    rw [consumeFrame_eq, if_neg (not_not.mpr ok), if_neg (mt (carriesPrefix_iff _ _).mp foreign),
      logUnrecognized_afterCommands]
    rfl
  · refine congrArg _ (phRxConsume_of_rxbusy armed ?_)
    rw [consumeFrame_eq, if_neg (not_not.mpr ok), if_pos ((carriesPrefix_iff _ _).mpr own), acceptFrame_afterCommands]
    rfl

/-- Settles O23: TICK_BEGIN has its effect exactly when it is accepted. -/
theorem tickBeginResult : Obligations.TickBeginResult := by
  refine fun s => ⟨fun open' setUp idle => ?_, fun barred => ?_⟩
  · simp only [exec, execTickBegin, tickRefusal_accepted ⟨open', setUp, idle⟩, unlessRefused]
    rfl
  · obtain ⟨why, -, refused⟩ | ⟨passed, -⟩ := unlessRefused_next (tickRefusal s) (setPhase .sample) s
    · exact ⟨why, refused⟩
    · obtain ⟨open', setUp, idle⟩ := tickRefusal_none passed
      simp [open', setUp, idle] at barred

/-- Settles O27, by the latches and by TXINFL. -/
theorem branchSelection : Obligations.BranchSelection := by
  refine fun i s => ⟨fun runs => ?_, fun runs => ?_⟩ <;> rw [exec_eq_phaseRule runs]
  · refine ⟨fun latched => ?_, fun noDone noPre => ?_⟩
    · simp [phaseRule, phSample_eq, (Latch.any_eq_true_iff _).mpr latched]
    · simp [phaseRule, phSample_eq, Latch.any, noDone, noPre]
  · refine ⟨fun inFlight => ?_, fun quiet => ?_⟩
    · simp [phaseRule, phGateOff_eq, inFlight]
    · simp [phaseRule, phGateOff_eq, quiet]

/-- Settles O28: the phase's equation, with the log record and the guard written out. -/
theorem txCompleteResult : Obligations.TxCompleteResult := by
  intro i s runs n
  rw [exec_eq_phaseRule runs]
  simp only [phaseRule, phTxComplete_eq, completionRecord, guardStart, guardDuration, n]

/-- Settles O30, by the preamble latch and the status of RX_ARM. -/
theorem preambleArmResult : Obligations.PreambleArmResult := by
  intro i s runs a
  rw [exec_eq_phaseRule runs]
  have regs : a.2.regs = s.regs := (portsOnly_rxArm s).regs
  refine ⟨fun noPre => ?_, fun pre ok => ?_, fun pre fails => ?_⟩
  · simp [phaseRule, phPreambleArm_eq, noPre]
  · simp [phaseRule, phPreambleArm_eq, armReceive_eq, pre, ok, a]
  · simp [phaseRule, phPreambleArm_eq, armReceive_eq, pre, fails, regs, a]

/-- Settles O31, by the two flags and the status of SCAN_ARM. -/
theorem scanRearmResult : Obligations.ScanRearmResult := by
  intro i s runs a
  rw [exec_eq_phaseRule runs]
  refine ⟨fun barred => ?_, fun rx quiet ok => ?_, fun rx quiet fails => ?_⟩
  · obtain noRx | busy := barred
    · simp [phaseRule, phScanRearm_eq, noRx]
    · simp [phaseRule, phScanRearm_eq, busy]
  · simp [phaseRule, phScanRearm_eq, rearmScan_eq, rx, quiet, ok, a]
  · simp [phaseRule, phScanRearm_eq, rearmScan_eq, rx, quiet, fails, a]

/-- Settles O32 by the equations of the two phases. -/
theorem branchExit : Obligations.BranchExit :=
  fun _ s =>
    ⟨fun runs => (exec_eq_phaseRule runs).trans (congrArg _ (phLatchClear_eq s)),
      fun runs => (exec_eq_phaseRule runs).trans (congrArg _ (phGateOn_eq s))⟩

end Sys2Proof.Proofs
end

section
/-! PROOFS. The phases of the idle branch as equations, each the whole next state
(spec/42_scheduler_idle_branch.md R83, R84). -/

namespace Sys2Proof.Machine

open Sys2Proof

/-- Expiry in integers: the sample is at least the duration past the start, modulo 2^32 (R106). -/
theorem guardExpired_iff (t : Time) (g : Guard) :
    guardExpired t g = true ↔ g.dur.toNat ≤ (t.toNat + 2 ^ 32 - g.start.toNat) % 2 ^ 32 := by
  have difference : ((t - g.start).setWidth 33).toNat = (t.toNat + 2 ^ 32 - g.start.toNat) % 2 ^ 32 := by
    rw [BitVec.toNat_setWidth_of_le (by decide), BitVec.toNat_sub]
    have := g.start.isLt
    congr 1
    omega
  rw [guardExpired, decide_eq_true_iff, BitVec.le_def, difference]

/-- The query of a timer that runs and has not expired leaves it as it is (R106). -/
theorem guardQuery_of_not_expired {t : Time} {g : Guard} (waiting : ¬guardExpired t g = true) :
    guardQuery t g = g := by
  simp [guardQuery, waiting]

/-- The query leaves a timer stopped that did not run or has expired (R106). -/
theorem guardQuery_of_elapsed {t : Time} {g : Guard} (elapsed : g.run = false ∨ guardExpired t g = true) :
    guardQuery t g = { g with run := false } := by
  obtain ⟨run, start, dur⟩ := g
  cases run with
  | false => rfl
  | true => simp_all [guardQuery]

/-- PH_GUARD_CHECK (R83): one sample, and PHASE by what the query leaves of the timer. -/
theorem phGuardCheck_eq (s : State) :
    let n := drawFrom asNow Config.freeTime s.env.draws s.env.free
    let g := guardQuery n.1.1 s.regs.guard
    phGuardCheck s =
      { s with
        regs :=
          { s.regs with
            guard := g
            phase := if !g.run && s.regs.cap.tx && !s.regs.txinfl then .txAttempt else .idle }
        env :=
          { s.env with draws := n.2.1, free := n.2.2, clock := advance s.env.clock n.1.1 n.1.2 } } := rfl

/-- The configuration is split when its two frequencies differ (R23). -/
theorem split_eq_true_iff (s : State) : split s = true ↔ (cfg s).rxFreq ≠ (cfg s).txFreq := decide_eq_true_iff

/-- OUTQ_EMPTY is the first command of a run; a draw that gives its answer is used up (R121). -/
theorem outqEmpty_eq (s : State) :
    outqEmpty s =
      (decide (s.env.outq = []),
        afterCommands (confirmed asOutqEmpty (decide (s.env.outq = [])) s.env.draws, s.env.free)
          [.outqEmpty (decide (s.env.outq = []))] s) := by
  have answer : decide (s.env.outq = []) = s.env.outq.isEmpty := by cases s.env.outq <;> simp
  rw [answer]
  rfl

/-- The deferral test after a run of commands (R84): a shared channel adds DRV_GET_MODEM_STATUS, whose answer
decides; a split one adds nothing. -/
theorem receiveInProgress_afterCommands (left : List Draw × Nat) (es : List PortEvent) (s : State) :
    let g := drawFrom asGetModemStatus Config.freeModemStatus left.1 left.2
    receiveInProgress (afterCommands left es s) =
      if (cfg s).rxFreq = (cfg s).txFreq then
        (decide (g.1 &&& s.params.rxBusyMask ≠ 0), afterCommands g.2 (es ++ [.drvGetModemStatus g.1]) s)
      else (false, afterCommands left es s) := by
  intro g
  have same : split (afterCommands left es s) = split s := rfl
  simp only [receiveInProgress, drvGetModemStatus, driverCall_afterCommands, same, split_eq_true_iff, ite_not]
  rfl

/-- OUTQ_DEQUEUE after a run of commands takes the head of the queue; a draw that gives it is used up (R122). -/
theorem outqDequeue_afterCommands {m : Msg} {rest : List Msg} (left : List Draw × Nat) (es : List PortEvent)
    {s : State} (queue : s.env.outq = m :: rest) :
    outqDequeue (afterCommands left es s) =
      (m, afterCommands (confirmed asOutqDequeue m left.1, left.2) (es ++ [.outqDequeue m])
        { s with env := { s.env with outq := rest } }) := by
  simp [outqDequeue, afterCommands, queue, State.confirm, emit]

/-- Sending the head of the queue after a run of commands (R84): OUTQ_DEQUEUE, and TX_START of the framed message. -/
theorem transmitOne_afterCommands {m : Msg} {rest : List Msg} (left : List Draw × Nat) (es : List PortEvent)
    {s : State} (queue : s.env.outq = m :: rest) :
    let a :=
      txStart (txFrame s m)
        (afterCommands (confirmed asOutqDequeue m left.1, left.2) (es ++ [.outqDequeue m])
          { s with env := { s.env with outq := rest } })
    transmitOne (afterCommands left es s) = transmitStarted a.1 a.2 := by
  simp only [transmitOne, outqDequeue_afterCommands left es queue]
  rfl

/-- What a transmit start leaves of the whole state (R84): a success writes registers alone, a failure is logged. -/
theorem transmitStarted_eq (st : Status) (s : State) :
    transmitStarted st s =
      if st = statusOk then { s with regs := { s.regs with txinfl := true, txres := st } }
      else
        { s with
          regs :=
            if s.params.txInflightOnStartFailure then
              { s.regs with cap := { s.regs.cap with tx := false }, txinfl := true, txres := st }
            else { s.regs with cap := { s.regs.cap with tx := false } }
          env := { s.env with out := s.env.out ++ [.logEmit (.txStartFail st)] } } := by
  unfold transmitStarted
  cases s.params.txInflightOnStartFailure <;> rfl

/-- PH_TX_ATTEMPT with an empty queue (R84). -/
theorem phTxAttempt_of_empty {s : State} (empty : s.env.outq = []) :
    phTxAttempt s =
      setPhase .idle (afterCommands (confirmed asOutqEmpty true s.env.draws, s.env.free) [.outqEmpty true] s) := by
  simp [phTxAttempt, outqEmpty_eq, empty]

/-- PH_TX_ATTEMPT with a message to send goes by the deferral test (R84). -/
theorem phTxAttempt_of_nonempty {s : State} (nonempty : s.env.outq ≠ []) :
    let b :=
      receiveInProgress
        (afterCommands (confirmed asOutqEmpty (decide (s.env.outq = [])) s.env.draws, s.env.free) [.outqEmpty false] s)
    phTxAttempt s = setPhase .idle (if b.1 then b.2 else transmitOne b.2) := by
  intro b
  have answer : (outqEmpty s).1 = false := by simp [outqEmpty_eq, nonempty]
  have probed : receiveInProgress (outqEmpty s).2 = b := by simp [outqEmpty_eq, nonempty, b]
  rw [phTxAttempt, answer, probed, if_neg Bool.false_ne_true, apply_ite (setPhase .idle)]

/-- PHASE at the end of a transmit start (R84), where the start itself wrote no register of `s`. -/
theorem setPhase_transmitStarted {s u : State} (sent : PortsOnly s u) (st : Status) :
    (st = statusOk →
        setPhase .idle (transmitStarted st u) =
          { u with regs := { s.regs with txinfl := true, txres := st, phase := .idle } }) ∧
      (st ≠ statusOk → s.params.txInflightOnStartFailure = false →
        setPhase .idle (transmitStarted st u) =
          { u with
            regs := { s.regs with cap := { s.regs.cap with tx := false }, phase := .idle }
            env := { u.env with out := u.env.out ++ [.logEmit (.txStartFail st)] } }) ∧
      (st ≠ statusOk → s.params.txInflightOnStartFailure = true →
        setPhase .idle (transmitStarted st u) =
          { u with
            regs :=
              { s.regs with cap := { s.regs.cap with tx := false }, txinfl := true, txres := st, phase := .idle }
            env := { u.env with out := u.env.out ++ [.logEmit (.txStartFail st)] } }) := by
  rw [transmitStarted_eq, ← sent.regs, ← sent.params]
  refine ⟨fun ok => ?_, fun fails quiet => ?_, fun fails counted => ?_⟩
  · simp [ok, setPhase, State.withRegs]
  · simp [fails, quiet, setPhase, State.withRegs]
  · simp [fails, counted, setPhase, State.withRegs]

end Sys2Proof.Machine
end

section
/-! PROOFS. The obligations about the idle branch (spec/42_scheduler_idle_branch.md). -/

namespace Sys2Proof.Proofs

open Sys2Proof Sys2Proof.Machine Sys2Proof.Safety

/-- Settles O33: the query's answer, in integers, decides with CAP.tx and TXINFL. -/
theorem guardCheckResult : Obligations.GuardCheckResult := by
  intro i s runs n expired after
  have expired_iff : guardExpired n.1.1 s.regs.guard = true ↔ expired := guardExpired_iff _ _
  rw [exec_eq_phaseRule runs, phaseRule, phGuardCheck_eq]
  refine ⟨fun running waiting => ?_, fun elapsed barred => ?_, fun elapsed tx quiet => ?_⟩
  · simp [guardQuery_of_not_expired (mt expired_iff.mp waiting), running, after, n]
  · rw [guardQuery_of_elapsed (elapsed.imp_right expired_iff.mpr)]
    obtain noTx | inFlight := barred
    · simp [noTx, after, n]
    · simp [inFlight, after, n]
  · rw [guardQuery_of_elapsed (elapsed.imp_right expired_iff.mpr)]
    simp [tx, quiet, after, n]

/-- Settles O34, by the queue, the deferral test and the status of TX_START. -/
theorem txAttemptResult : Obligations.TxAttemptResult := by
  intro i s runs c d g busy
  have run : exec i s = .next (phTxAttempt s) := exec_eq_phaseRule runs
  refine ⟨fun empty => ?_, fun nonempty deferred => ?_, fun m rest queue free => ?_⟩
  · rw [run, phTxAttempt_of_empty empty]
    simp [setPhase, State.withRegs, afterCommands, empty, d]
  · obtain ⟨shared, receiving⟩ := deferred
    rw [run, phTxAttempt_of_nonempty nonempty, receiveInProgress_afterCommands, if_pos shared,
      if_pos (decide_eq_true receiving)]
    rfl
  · intro u a
    have nonempty : s.env.outq ≠ [] := by simp [queue]
    have started : phTxAttempt s = setPhase .idle (transmitStarted a.1 a.2) := by
      rw [phTxAttempt_of_nonempty nonempty, receiveInProgress_afterCommands]
      by_cases shared : c.rxFreq = c.txFreq
      · have quiet : decide (g.1 &&& s.params.rxBusyMask ≠ 0) ≠ true := by simpa [busy, shared] using free
        rw [if_pos shared, if_neg quiet, transmitOne_afterCommands _ _ queue]
        simp only [a, u, if_pos shared, List.append_assoc]
        rfl
      · rw [if_neg shared, if_neg Bool.false_ne_true, transmitOne_afterCommands _ _ queue]
        simp only [a, u, if_neg shared, List.append_assoc]
        rfl
    have sent : PortsOnly s a.2 := (⟨rfl, rfl, rfl, rfl, rfl⟩ : PortsOnly s u).trans (portsOnly_txStart _ u)
    obtain ⟨ok, fails, counted⟩ := setPhase_transmitStarted sent a.1
    rw [run, started]
    exact ⟨fun h => congrArg _ (ok h), fun h k => congrArg _ (fails h k), fun h k => congrArg _ (counted h k)⟩

end Sys2Proof.Proofs
end

section
/-! PROOFS. The frequency switch and the calls behind it as equations, each the status and the whole next state
(spec/43_frequency_switch.md R88 to R91). -/

namespace Sys2Proof.Machine

open Sys2Proof

/-- FREQ_SWITCH with one frequency for both directions issues nothing (R88). -/
theorem freqSwitch_of_shared {s : State} (dir : Dir) (shared : (cfg s).rxFreq = (cfg s).txFreq) :
    freqSwitch dir s = (statusOk, s) :=
  if_neg fun isSplit => (split_eq_true_iff s).mp isSplit shared

/-- FREQ_SWITCH with two frequencies is the frequency command of the direction (R88). -/
theorem freqSwitch_of_split {s : State} (dir : Dir) (differ : (cfg s).rxFreq ≠ (cfg s).txFreq) :
    freqSwitch dir s = drvSetFrequency dir s :=
  if_pos ((split_eq_true_iff s).mpr differ)

/-- A failing switch is what the call behind it answers (R89, R90, R91). -/
theorem afterSwitch_of_fails {dir : Dir} {s : State} (call : State → Status × State)
    (fails : (freqSwitch dir s).1 ≠ statusOk) : afterSwitch dir call s = freqSwitch dir s :=
  if_neg fails

/-- Behind a successful switch the call runs in the state the switch left (R89, R90, R91). -/
theorem afterSwitch_of_ok {dir : Dir} {s : State} (call : State → Status × State)
    (ok : (freqSwitch dir s).1 = statusOk) : afterSwitch dir call s = call (freqSwitch dir s).2 :=
  if_pos ok

/-- DRV_START_RECEIVE behind the switch keeps the receive mode of the state before it (R89, R115). -/
theorem drvStartReceive_freqSwitch (dir : Dir) (s : State) :
    drvStartReceive (freqSwitch dir s).2 =
      driverCall asStartReceive Config.freeStatus (fun st => .drvStartReceive s.params.rxMode st)
        (freqSwitch dir s).2 := by
  rw [drvStartReceive, (portsOnly_freqSwitch dir s).params]

end Sys2Proof.Machine
end

section
/-! PROOFS. The obligations about the frequency switch (spec/43_frequency_switch.md). -/

namespace Sys2Proof.Proofs

open Sys2Proof Sys2Proof.Machine

/-- Settles O35, by whether the two frequencies differ. -/
theorem freqSwitchResult : Obligations.FreqSwitchResult := by
  intro dir s c f
  refine ⟨freqSwitch_of_shared dir, fun differ => ?_⟩
  rw [freqSwitch_of_split dir differ, drvSetFrequency, driverCall_eq]
  cases dir <;> rfl

/-- Settles O36, by the status of the switch in each direction. -/
theorem armsGoThroughTheSwitch : Obligations.ArmsGoThroughTheSwitch := by
  intro s frame answered rx tx r n x
  refine ⟨fun fails => ⟨afterSwitch_of_fails _ fails, afterSwitch_of_fails _ fails⟩, afterSwitch_of_fails _,
    fun ok => ⟨?_, ?_⟩, fun ok => ?_⟩
  · rw [rxArm, afterSwitch_of_ok _ ok, drvStartReceive_freqSwitch]
    exact driverCall_eq _ _ _ rx.2
  · rw [scanArm, afterSwitch_of_ok _ ok]
    exact driverCall_eq _ _ _ rx.2
  · rw [txStart, afterSwitch_of_ok _ ok]
    exact driverCall_eq _ _ _ tx.2

end Sys2Proof.Proofs
end

section
/-! PROOFS. The interrupt words as equations, each the whole next state
(spec/44_interrupt_latch_sync.md R94 to R99). -/

namespace Sys2Proof.Machine

open Sys2Proof

/-- An interrupt event on a registered line with the gate open sets the latch of the line (R94, R95). -/
theorem handler_of_open {l : IrqLine} {s : State} (line : lineRegistered l s.regs = true)
    (gate : s.regs.gate = true) :
    handler l s = s.withRegs fun r => { r with latch := setLatch l r.latch } :=
  if_pos (by rw [line, gate]; rfl)

/-- An interrupt event on an unregistered line or behind a closed gate leaves no trace (R97). -/
theorem handler_of_shut {l : IrqLine} {s : State} (shut : lineRegistered l s.regs = false ∨ s.regs.gate = false) :
    handler l s = s := by
  refine if_neg fun both => ?_
  obtain ⟨line, gate⟩ := Bool.and_eq_true_iff.mp both
  obtain unregistered | closed := shut
  · exact Bool.false_ne_true (unregistered.symm.trans line)
  · exact Bool.false_ne_true (closed.symm.trans gate)

/-- Only a refused state refuses an interrupt word (R53, R133). -/
theorem irqRefusal_of_notRefused {s : State} (notRefused : s.regs.refused = false) : irqRefusal s = none :=
  if_neg (by simp [notRefused])

/-- Outside a refused state IRQ_DONE is the handler of line 0 (R94). -/
theorem exec_irqDone_of_notRefused {s : State} (notRefused : s.regs.refused = false) :
    exec .irqDone s = .next (handler .line0 s) := by
  rw [exec, execIrqDone, irqRefusal_of_notRefused notRefused, unlessRefused]

/-- Outside a refused state IRQ_PREAMBLE is the handler of line 1 (R95). -/
theorem exec_irqPreamble_of_notRefused {s : State} (notRefused : s.regs.refused = false) :
    exec .irqPreamble s = .next (handler .line1 s) := by
  rw [exec, execIrqPreamble, irqRefusal_of_notRefused notRefused, unlessRefused]

end Sys2Proof.Machine
end

section
/-! PROOFS. The obligations about the interrupt latches (spec/44_interrupt_latch_sync.md). -/

namespace Sys2Proof.Proofs

open Sys2Proof Sys2Proof.Machine

/-- Settles O40, by whether the line is registered and the gate is open, for each of the two lines. -/
theorem handlerResult : Obligations.HandlerResult := by
  intro s notRefused
  rw [exec_irqDone_of_notRefused notRefused, exec_irqPreamble_of_notRefused notRefused]
  refine ⟨fun line gate => ?_, fun shut => ?_, fun line gate => ?_, fun shut => ?_⟩
  · exact congrArg _ (handler_of_open (l := .line0) line gate)
  · exact congrArg _ (handler_of_shut (l := .line0) shut)
  · exact congrArg _ (handler_of_open (l := .line1) line gate)
  · exact congrArg _ (handler_of_shut (l := .line1) shut)

end Sys2Proof.Proofs
end

section
/-! PROOFS. The transmit guard timer: what a query finds of a timer, and the size of the duration
(spec/45_guard_timer.md R105, R106). -/

namespace Sys2Proof.Machine

open Sys2Proof

/-- The query leaves a timer that does not run as it is (R106). -/
theorem guardQuery_of_stopped {g : Guard} (t : Time) (stopped : g.run = false) : guardQuery t g = g :=
  if_neg (by simp [stopped])

/-- A timer that runs and has not expired is not elapsed (R106). -/
theorem guardElapsed_of_not_expired {t : Time} {g : Guard} (running : g.run = true)
    (waiting : ¬guardExpired t g = true) : guardElapsed t g = false := by
  rw [guardElapsed, guardQuery_of_not_expired waiting, running, Bool.not_true]

/-- The 33 bits of the duration hold twice the preamble duration without overflow (R105). -/
theorem guardDuration_toNat (pd : BitVec 32) : (guardDuration pd).toNat = 2 * pd.toNat := by
  have fits : 2 * pd.toNat < 2 ^ 33 := by
    have := pd.isLt
    omega
  have widened : (pd.setWidth 33).toNat = pd.toNat := BitVec.toNat_setWidth_of_le (by decide)
  rw [guardDuration, BitVec.toNat_mul, widened]
  exact Nat.mod_eq_of_lt fits

/-- A sample is less than 2^32 past the start, so a duration of 2^32 or more has never expired (R106). -/
theorem not_guardExpired_of_long {g : Guard} (t : Time) (long : 2 ^ 32 ≤ g.dur.toNat) :
    ¬guardExpired t g = true := by
  rw [guardExpired_iff, Nat.not_le]
  calc
    (t.toNat + 2 ^ 32 - g.start.toNat) % 2 ^ 32 < 2 ^ 32 := Nat.mod_lt _ (by decide)
    _ ≤ g.dur.toNat := long

end Sys2Proof.Machine
end

section
/-! PROOFS. The obligations about the guard timer (spec/45_guard_timer.md). -/

namespace Sys2Proof.Proofs

open Sys2Proof Sys2Proof.Machine

/-- Settles O45: the product fits in 33 bits, and a duration of 2^32 or more is past every difference of samples. -/
theorem longGuardNeverElapses : Obligations.LongGuardNeverElapses := by
  intro pd start t
  refine ⟨guardDuration_toNat pd, fun large => ?_⟩
  have long : 2 ^ 32 ≤ (guardDuration pd).toNat := by
    rw [guardDuration_toNat]
    omega
  have waiting : ¬guardExpired t (guardStart start (guardDuration pd)) = true := not_guardExpired_of_long t long
  exact ⟨guardElapsed_of_not_expired rfl waiting, guardQuery_of_not_expired waiting⟩

/-- Settles O44, by whether the timer runs and whether it has expired. -/
theorem guardQueryResult : Obligations.GuardQueryResult := by
  intro t g expired
  have expired_iff : guardExpired t g = true ↔ expired := guardExpired_iff t g
  refine ⟨fun _ due => ?_, fun running early => ?_, fun stopped => ?_⟩
  · have query : guardQuery t g = { g with run := false } := guardQuery_of_elapsed (.inr (expired_iff.mpr due))
    exact ⟨query, (guardElapsed_iff t g).mpr (congrArg Guard.run query)⟩
  · have waiting : ¬guardExpired t g = true := mt expired_iff.mp early
    exact ⟨guardQuery_of_not_expired waiting, guardElapsed_of_not_expired running waiting⟩
  · have query : guardQuery t g = g := guardQuery_of_stopped t stopped
    exact ⟨query, (guardElapsed_iff t g).mpr ((congrArg Guard.run query).trans stopped)⟩

end Sys2Proof.Proofs
end

section
/-! PROOFS. The operation word: the decoder and the encoder class by class (spec/30_encoding.md R45 to R54). -/

namespace Sys2Proof

/-- A word is made of its two fields (R45). -/
theorem opWord_fields (w : OpWord) : opWord (clsField w) (codeField w) = w := by
  rw [opWord, clsField, codeField, BitVec.extractLsb'_append_extractLsb'_eq_extractLsb' (by rfl)]
  exact BitVec.extractLsb'_eq_self

/-- The value of a word in its two fields (R45). -/
theorem toNat_eq_fields (w : OpWord) : w.toNat = 32 * (clsField w).toNat + (codeField w).toNat := by
  simp only [clsField, codeField, BitVec.extractLsb'_toNat, Nat.shiftRight_eq_div_pow]
  have := w.isLt
  omega

/-- A field is the word that its value names. -/
theorem eq_ofNat_of_toNat {n k : Nat} {x : BitVec n} (h : x.toNat = k) : x = BitVec.ofNat n k := by
  rw [← h, BitVec.ofNat_toNat, BitVec.setWidth_eq]

/-- The codes of the control inputs and no others name one (R47). -/
theorem encode_of_decodeControl {code : BitVec 5} {i : Instr} (h : decodeControl code.toNat = .op i) :
    encode i = opWord 0#3 code := by
  unfold decodeControl at h
  split at h <;> cases h <;> rename_i hc <;> rw [eq_ofNat_of_toNat hc] <;> rfl

/-- The codes of the interrupt lines (R48). -/
theorem encode_of_decodeInterrupt {code : BitVec 5} {i : Instr} (h : decodeInterrupt code.toNat = .op i) :
    encode i = opWord 1#3 code := by
  unfold decodeInterrupt at h
  split at h <;> cases h <;> rename_i hc <;> rw [eq_ofNat_of_toNat hc] <;> rfl

/-- The codes of the driver commands (R49). -/
theorem encode_of_decodeDriver {code : BitVec 5} {i : Instr} (h : decodeDriver code.toNat = .op i) :
    encode i = opWord 2#3 code := by
  unfold decodeDriver at h
  split at h <;> cases h <;> rename_i hc <;> rw [eq_ofNat_of_toNat hc] <;> rfl

/-- The codes of the collaborator operations (R50). -/
theorem encode_of_decodeCollaborator {code : BitVec 5} {i : Instr} (h : decodeCollaborator code.toNat = .op i) :
    encode i = opWord 3#3 code := by
  unfold decodeCollaborator at h
  split at h <;> cases h <;> rename_i hc <;> rw [eq_ofNat_of_toNat hc] <;> rfl

/-- The codes of the sequencer phases (R51). -/
theorem encode_of_decodePhase {code : BitVec 5} {i : Instr} (h : decodePhase code.toNat = .op i) :
    encode i = opWord 4#3 code := by
  unfold decodePhase at h
  split at h <;> cases h <;> rename_i hc <;> rw [eq_ofNat_of_toNat hc] <;> rfl

theorem decodeControl_eq_reserved_iff (n : Nat) : decodeControl n = .reserved ↔ 4 ≤ n := by
  unfold decodeControl
  split <;> simp; grind

theorem decodeInterrupt_eq_reserved_iff (n : Nat) : decodeInterrupt n = .reserved ↔ 2 ≤ n := by
  unfold decodeInterrupt
  split <;> simp; grind

theorem decodeDriver_eq_reserved_iff (n : Nat) : decodeDriver n = .reserved ↔ 12 ≤ n := by
  unfold decodeDriver
  split <;> simp; grind

theorem decodeCollaborator_eq_reserved_iff (n : Nat) : decodeCollaborator n = .reserved ↔ 5 ≤ n := by
  unfold decodeCollaborator
  split <;> simp; grind

theorem decodePhase_eq_reserved_iff (n : Nat) : decodePhase n = .reserved ↔ 11 ≤ n := by
  unfold decodePhase
  split <;> simp; grind

/-- The class that each value of CLS names (R46). -/
theorem classOf_cases (cls : BitVec 3) :
    (cls.toNat = 0 ∧ classOf cls = .control) ∨ (cls.toNat = 1 ∧ classOf cls = .interrupt) ∨
      (cls.toNat = 2 ∧ classOf cls = .driver) ∨ (cls.toNat = 3 ∧ classOf cls = .collaborator) ∨
      (cls.toNat = 4 ∧ classOf cls = .phase) ∨ (5 ≤ cls.toNat ∧ classOf cls = .reserved) := by
  decide +revert

/-- The decoder on its two fields: one table for each value of CLS up to 4, and none above (R46, R54). -/
theorem decode_cases (w : OpWord) :
    ((clsField w).toNat = 0 ∧ decode w = decodeControl (codeField w).toNat) ∨
      ((clsField w).toNat = 1 ∧ decode w = decodeInterrupt (codeField w).toNat) ∨
      ((clsField w).toNat = 2 ∧ decode w = decodeDriver (codeField w).toNat) ∨
      ((clsField w).toNat = 3 ∧ decode w = decodeCollaborator (codeField w).toNat) ∨
      ((clsField w).toNat = 4 ∧ decode w = decodePhase (codeField w).toNat) ∨
      (5 ≤ (clsField w).toNat ∧ decode w = .reserved) := by
  unfold decode wordClass
  obtain ⟨hc, h⟩ | ⟨hc, h⟩ | ⟨hc, h⟩ | ⟨hc, h⟩ | ⟨hc, h⟩ | ⟨hc, h⟩ := classOf_cases (clsField w) <;> simp [hc, h]

/-- A word that decodes to an operation is that operation's word (R54). -/
theorem eq_encode_of_decode {w : OpWord} {i : Instr} (h : decode w = .op i) : w = encode i := by
  rw [← opWord_fields w]
  obtain ⟨hc, table⟩ | ⟨hc, table⟩ | ⟨hc, table⟩ | ⟨hc, table⟩ | ⟨hc, table⟩ | ⟨-, table⟩ := decode_cases w <;>
    rw [table] at h
  · rw [eq_ofNat_of_toNat hc, encode_of_decodeControl h]
  · rw [eq_ofNat_of_toNat hc, encode_of_decodeInterrupt h]
  · rw [eq_ofNat_of_toNat hc, encode_of_decodeDriver h]
  · rw [eq_ofNat_of_toNat hc, encode_of_decodeCollaborator h]
  · rw [eq_ofNat_of_toNat hc, encode_of_decodePhase h]
  · cases h

/-- The word of an operation decodes to it (R54). -/
theorem decode_encode (i : Instr) : decode (encode i) = .op i := by
  cases i <;> rfl

/-- No two operations share a word. -/
theorem encode_injective {i j : Instr} (h : encode i = encode j) : i = j :=
  Decoded.op.inj ((decode_encode i).symm.trans ((congrArg decode h).trans (decode_encode j)))

/-- A word is reserved when its code is past the end of its class, or its class is past the fifth (R52). -/
theorem decode_eq_reserved_iff (w : OpWord) :
    decode w = .reserved ↔
      (0x04 ≤ w.toNat ∧ w.toNat ≤ 0x1F) ∨ (0x22 ≤ w.toNat ∧ w.toNat ≤ 0x3F) ∨ (0x4C ≤ w.toNat ∧ w.toNat ≤ 0x5F) ∨
        (0x65 ≤ w.toNat ∧ w.toNat ≤ 0x7F) ∨ (0x8B ≤ w.toNat ∧ w.toNat ≤ 0x9F) ∨ 0xA0 ≤ w.toNat := by
  have value := toNat_eq_fields w
  have code := (codeField w).isLt
  obtain ⟨hc, table⟩ | ⟨hc, table⟩ | ⟨hc, table⟩ | ⟨hc, table⟩ | ⟨hc, table⟩ | ⟨hc, table⟩ := decode_cases w <;>
    simp only [table, decodeControl_eq_reserved_iff, decodeInterrupt_eq_reserved_iff, decodeDriver_eq_reserved_iff,
      decodeCollaborator_eq_reserved_iff, decodePhase_eq_reserved_iff, true_iff] <;>
    omega

end Sys2Proof
end

section
/-! PROOFS. The obligations about the operation word (spec/30_encoding.md §2, §3). -/

namespace Sys2Proof.Proofs

open Sys2Proof

/-- Settles O2: the tables of the five classes, read in both directions. -/
theorem decodeInvertsEncode : Obligations.DecodeInvertsEncode := by
  refine ⟨fun w i => ⟨eq_encode_of_decode, ?_⟩, decode_eq_reserved_iff⟩
  rintro rfl
  exact decode_encode i

/-- Settles O1 by running the decoder on the sixteen words. -/
theorem wordsDecodeToTheirInstructions : Obligations.WordsDecodeToTheirInstructions := by
  unfold Obligations.WordsDecodeToTheirInstructions
  decide

end Sys2Proof.Proofs
end

section
/-! PROOFS. The parts of what it is to run a phase (spec/41_scheduler_tick.md R71), by name. -/

namespace Sys2Proof.Safety

open Sys2Proof Sys2Proof.Machine

theorem Runs.notRefused {i : Instr} {s : State} {p : Phase} (h : Runs i s p) : s.regs.refused = false := h.1

theorem Runs.held {i : Instr} {s : State} {p : Phase} (h : Runs i s p) : s.regs.phase = p := h.2.1

/-- PH_IDLE is no phase that runs. -/
theorem Runs.busy {i : Instr} {s : State} {p : Phase} (h : Runs i s p) : s.regs.phase ≠ .idle := h.held ▸ h.2.2.1

end Sys2Proof.Safety
end

section
/-! PROOFS. Which operations are refused and which go on: each refusal as an equation, the next state of each accepted
input, and the step at the boundary (spec/30_encoding.md R53, spec/60_exceptions.md R133, R140). -/

namespace Sys2Proof.Machine

open Sys2Proof Sys2Proof.Safety

/-- What a refusal leaves is the marked state (R133). -/
theorem refuse_eq_marked (why : RefusalReason) (s : State) : refuse why s = marked why s := rfl

/-- A reason refuses the operation, whatever its effect would be. -/
theorem unlessRefused_some (why : RefusalReason) (effect : State → State) (s : State) :
    unlessRefused (some why) effect s = .next (marked why s) := rfl

/-- A word of the block's own goes by the refusal of its class: a phase word by that of its phase, the others by that of
a command. -/
theorem exec_of_output {i : Instr} (output : isInput i = false) (s : State) :
    ∃ effect, exec i s = unlessRefused (i.phase?.elim (commandRefusal s) (phaseRefusal · s)) effect s := by
  cases i with
  | reset | setup | tickBegin | step | irqDone | irqPreamble => exact absurd output (by decide)
  | _ => exact ⟨_, by dsimp only [exec]; rfl⟩

/-- The words of the phases are the block's own (R46). -/
theorem isInput_phase_instr (p : Phase) : isInput p.instr = false := by
  cases p <;> rfl

/-- The word of a phase names that phase (R51). -/
theorem phase?_phase_instr (p : Phase) : p.instr.phase? = some p := by
  cases p <;> rfl

/-- A command word presented as input has no meaning (R53). -/
theorem commandRefusal_of_input {s : State} (notRefused : s.regs.refused = false) (side : s.port.side = .input) :
    commandRefusal s = some .rf2 := by
  simp [commandRefusal, notRefused, side]

/-- A phase word presented as input has no meaning, and neither has one that PHASE does not hold (R53, R24). -/
theorem phaseRefusal_of_input_or_notHeld {s : State} {p : Phase} (notRefused : s.regs.refused = false)
    (barred : s.port.side = .input ∨ s.regs.phase ≠ p) : phaseRefusal p s = some .rf2 := by
  cases side : s.port.side <;> simp_all [phaseRefusal]

/-- An output word or a phase word presented as input is refused with RF2 (R133). -/
theorem exec_output_of_input {i : Instr} {s : State} (notRefused : s.regs.refused = false)
    (output : isInput i = false) (side : s.port.side = .input) : exec i s = .next (marked .rf2 s) := by
  obtain ⟨effect, run⟩ := exec_of_output output s
  rw [run]
  cases i.phase? with
  | none => rw [Option.elim_none, commandRefusal_of_input notRefused side, unlessRefused_some]
  | some p =>
    rw [Option.elim_some, phaseRefusal_of_input_or_notHeld notRefused (.inl side), unlessRefused_some]

/-- The word of a phase that PHASE does not hold is refused with RF2. -/
theorem exec_phase_instr_of_notHeld {s : State} {p : Phase} (notRefused : s.regs.refused = false)
    (notHeld : s.regs.phase ≠ p) : exec p.instr s = .next (marked .rf2 s) := by
  obtain ⟨effect, run⟩ := exec_of_output (isInput_phase_instr p) s
  rw [run, phase?_phase_instr, Option.elim_some, phaseRefusal_of_input_or_notHeld notRefused (.inr notHeld),
    unlessRefused_some]

/-- The word PH_IDLE issued between ticks does nothing (R24). -/
theorem exec_phIdle_of_held {s : State} (issued : Issued s) (held : s.regs.phase = .idle) :
    exec .phIdle s = .next s := by
  obtain ⟨notRefused, side⟩ := issued
  simp [exec, execPhIdle, phaseRefusal, notRefused, side, held, unlessRefused]

theorem exec_setup_of_refusal {s : State} {why : RefusalReason} (h : setupRefusal s = some why) :
    exec .setup s = .next (marked why s) := by
  rw [exec, execSetup, h, unlessRefused_some]

theorem exec_tickBegin_of_refusal {s : State} {why : RefusalReason} (h : tickRefusal s = some why) :
    exec .tickBegin s = .next (marked why s) := by
  rw [exec, execTickBegin, h, unlessRefused_some]

theorem exec_step_of_refusal {s : State} {why : RefusalReason} (h : stepRefusal s = some why) :
    exec .step s = .next (marked why s) := by
  rw [exec, execStep, h, unlessRefused_some]

/-- While REFUSED is 1 only RESET has an effect (R133, RF7). -/
theorem exec_of_refused {i : Instr} {s : State} (refused : s.regs.refused = true) (notReset : i ≠ .reset) :
    exec i s = .next s := by
  obtain ⟨t, run⟩ := exec_next i s
  have barred {P : Prop} (h : s.regs.refused = false) : P := (Bool.false_ne_true (h.symm.trans refused)).elim
  cases exec_cases run with
  | refused why _ result => rw [run, result, refuse_refused why s refused]
  | reset is _ => exact absurd is notReset
  | setup _ accepted _ => exact barred accepted.1
  | tickBegin _ accepted _ => exact barred accepted.1
  | phase _ runs _ => exact barred runs.notRefused
  | done _ open' _ => exact barred open'
  | preamble _ open' _ => exact barred open'
  | idle _ issued _ _ => exact barred issued.1
  | command _ issued _ => exact barred issued.1

/-- An accepted TICK_BEGIN writes PHASE (R70). -/
theorem exec_tickBegin_of_accepted {s : State} (accepted : Accepted .tickBegin s) :
    exec .tickBegin s = .next (setPhase .sample s) := by
  rw [exec, execTickBegin, tickRefusal_accepted accepted, unlessRefused]

/-- An accepted STEP runs the phase that PHASE holds (R71). -/
theorem runs_step {s : State} (accepted : Accepted .step s) : Runs .step s s.regs.phase := by
  obtain ⟨notRefused, busy⟩ := accepted
  exact ⟨notRefused, rfl, busy, .inl rfl⟩

/-- A handler leaves the mark as it is. -/
theorem handler_refused (l : IrqLine) (s : State) : (handler l s).regs.refused = s.regs.refused := by
  obtain h | ⟨-, h⟩ := handler_regs l s <;> rw [h]

/-- An accepted input goes on to a state that is not refused (R53). -/
theorem exec_of_accepted {i : Instr} {s : State} (accepted : Accepted i s) :
    ∃ t, exec i s = .next t ∧ t.regs.refused = false := by
  cases i with
  | reset => exact ⟨_, rfl, rfl⟩
  | setup =>
    obtain ⟨⟨c, f, regs, -⟩, -⟩ := setupBody_spec s
    exact ⟨_, exec_setup_of_accepted accepted, regs ▸ accepted.1⟩
  | tickBegin => exact ⟨_, exec_tickBegin_of_accepted accepted, accepted.1⟩
  | step =>
    obtain ⟨-, -, -, -, kept, -⟩ := runPhase_fixed s
    exact ⟨_, exec_runs (runs_step accepted), kept.trans accepted.1⟩
  | irqDone => exact ⟨_, exec_irqDone_of_notRefused accepted, (handler_refused .line0 s).trans accepted⟩
  | irqPreamble => exact ⟨_, exec_irqPreamble_of_notRefused accepted, (handler_refused .line1 s).trans accepted⟩
  | _ => exact accepted.elim

/-- A word presented as input does not stand there as the block's own. -/
theorem not_issued_of_input {i : Instr} {s : State} (input : isInput i = true ∨ s.port.side = .input)
    (output : isInput i = false) : s.port.side ≠ .issued := by
  obtain isIn | side := input
  · exact absurd (output.symm.trans isIn) Bool.false_ne_true
  · simp [side]

/-- A word presented as input that R53 does not accept is refused, with no other effect (R133). -/
theorem exec_of_not_accepted {i : Instr} {s : State} (input : isInput i = true ∨ s.port.side = .input)
    (barred : ¬Accepted i s) : ∃ why, exec i s = .next (marked why s) := by
  obtain ⟨t, run⟩ := exec_next i s
  cases exec_cases run with
  | refused why _ result => exact ⟨why, run.trans (congrArg _ result)⟩
  | reset is _ => exact absurd (is ▸ trivial) barred
  | setup is accepted _ => exact absurd (is ▸ accepted) barred
  | tickBegin is accepted _ => exact absurd (is ▸ accepted) barred
  | phase p runs _ =>
    obtain ⟨notRefused, held, busy, rfl | ⟨rfl, side⟩⟩ := runs
    · exact absurd ⟨notRefused, held ▸ busy⟩ barred
    · exact absurd side (not_issued_of_input input (isInput_phase_instr p))
  | done is open' _ => exact absurd (is ▸ open') barred
  | preamble is open' _ => exact absurd (is ▸ open') barred
  | idle is issued _ _ => exact absurd issued.2 (not_issued_of_input input (is ▸ rfl))
  | command output issued _ => exact absurd issued.2 (not_issued_of_input input output)

/-- With nothing presented the machine waits (R134). -/
theorem step_of_nil {s : State} (pending : s.env.pending = []) : step s = .next s := by
  simp only [step, pending]

/-- A word that decodes to an operation runs at the line that brings it (R140). -/
theorem step_of_op {s : State} {l : OpLine} {rest : List OpLine} {i : Instr} (pending : s.env.pending = l :: rest)
    (op : decode l.word = .op i) : step s = exec i (takeLine l rest s) := by
  simp only [step, pending, op]

/-- A reserved word is refused at the line that brings it (R52). -/
theorem step_of_reserved {s : State} {l : OpLine} {rest : List OpLine} (pending : s.env.pending = l :: rest)
    (reserved : decode l.word = .reserved) : step s = .next (marked .rf1 (takeLine l rest s)) := by
  simp only [step, pending, reserved, refuse_eq_marked]

/-- Every step answers a next state (R127, R132). -/
theorem step_next (s : State) : ∃ t, step s = .next t := by
  cases pending : s.env.pending with
  | nil => exact ⟨s, step_of_nil pending⟩
  | cons l rest =>
    cases word : decode l.word with
    | op i =>
      rw [step_of_op pending word]
      exact exec_next i _
    | reserved => exact ⟨_, step_of_reserved pending word⟩

end Sys2Proof.Machine
end

section
/-! PROOFS. The parameter classifyBeginStatus: what it answers, and what its check says of it
(spec/30_encoding.md R58). -/

namespace Sys2Proof.Machine

open Sys2Proof

/-- A listed status has the code of its first entry. -/
theorem classify_of_listed {c : Classifier} {before after : List (Status × BitVec 4)} {st : Status} {k : BitVec 4}
    (table : c.table = before ++ (st, k) :: after) (first : ∀ e ∈ before, e.1 ≠ st) : classify c st = k := by
  have found : c.table.lookup st = some k :=
    List.lookup_eq_some_iff.mpr ⟨before, after, table, fun e he => bne_iff_ne.mpr (first e he).symm⟩
  simp only [classify, found]

/-- A status that is not listed has code 0, or the code of the remaining kind when it fails. -/
theorem classify_of_unlisted {c : Classifier} {st : Status} (unlisted : ∀ e ∈ c.table, e.1 ≠ st) :
    classify c st = if st = statusOk then 0 else c.rest.code := by
  have missing : c.table.lookup st = none :=
    List.lookup_eq_none_iff.mpr fun e he => bne_iff_ne.mpr (unlisted e he).symm
  simp only [classify, missing]

/-- A status is listed, and then its code is that of an entry of its own, or it is not. -/
theorem listed_or_unlisted (c : Classifier) (st : Status) :
    (st, classify c st) ∈ c.table ∨ ∀ e ∈ c.table, e.1 ≠ st := by
  cases found : c.table.lookup st with
  | some k =>
    obtain ⟨before, after, table, first⟩ := List.lookup_eq_some_iff.mp found
    have answer : classify c st = k := classify_of_listed table fun e he => (bne_iff_ne.mp (first e he)).symm
    exact .inl (by simp [answer, table])
  | none => exact .inr fun e he => (bne_iff_ne.mp (List.lookup_eq_none_iff.mp found e he)).symm

/-- A code names a failing kind when it is one of 1 to 8 (R58). -/
theorem ofCode_isSome_iff (k : BitVec 4) : (ErrKind.ofCode k).isSome ↔ 1 ≤ k.toNat ∧ k.toNat ≤ 8 := by
  decide +revert

/-- The check looks at the listed statuses alone and says of every status what R58 asks: the others have the code of a
kind. -/
theorem classifierOk_iff (c : Classifier) :
    classifierOk c = true ↔
      classify c statusOk = 0 ∧ ∀ st, st ≠ statusOk → 1 ≤ (classify c st).toNat ∧ (classify c st).toNat ≤ 8 := by
  simp only [classifierOk, Bool.and_eq_true, decide_eq_true_iff, List.all_eq_true, Bool.or_eq_true,
    ofCode_isSome_iff]
  refine and_congr_right fun _ => ⟨fun entries st fails => ?_, fun all e _ => ?_⟩
  · obtain listed | unlisted := listed_or_unlisted c st
    · exact (entries _ listed).resolve_left fails
    · rw [classify_of_unlisted unlisted, if_neg fails]
      exact c.rest.code_range
  · exact or_iff_not_imp_left.mpr (all e.1)

/-- The classifier of the machine after reset obeys R58, whatever its open parameters are. -/
theorem classifierOk_initial : classifierOk Classifier.initial = true := by
  have entries : ∀ e ∈ Classifier.initial.table, e.1 ≠ statusOk ∧ ∃ k : ErrKind, e.2 = k.code := by
    simp only [Classifier.initial, List.mem_map, List.mem_filter, decide_eq_true_iff]
    rintro _ ⟨e, ⟨-, fails⟩, rfl⟩
    exact ⟨fails, e.2, rfl⟩
  refine (classifierOk_iff _).mpr ⟨?_, fun st fails => ?_⟩
  · rw [classify_of_unlisted fun e he => (entries e he).1, if_pos rfl]
  · obtain listed | unlisted := listed_or_unlisted Classifier.initial st
    · obtain ⟨-, k, code⟩ := entries _ listed
      rw [show classify Classifier.initial st = k.code from code]
      exact k.code_range
    · rw [classify_of_unlisted unlisted, if_neg fails]
      exact ErrKind.code_range _

/-- SETUP with a classifier that breaks R58 is refused with RF8, where nothing else bars it. -/
theorem setupRefusal_of_classifier {s : State} (notRefused : s.regs.refused = false)
    (notSetUp : s.regs.setupDone = false) (idle : s.regs.phase = .idle)
    (breaks : classifierOk s.params.classifier = false) : setupRefusal s = some .rf8 := by
  simp [setupRefusal, notRefused, notSetUp, idle, breaks]

end Sys2Proof.Machine
end

section
/-! PROOFS. The obligations about what is refused and what goes on (spec/30_encoding.md §3, spec/60_exceptions.md §1,
§2), and about the step at the boundary. -/

namespace Sys2Proof.Proofs

open Sys2Proof Sys2Proof.Machine Sys2Proof.Safety

/-- Settles O11: by the inversion of `exec`, an input that is not refused was accepted. -/
theorem legalityTable : Obligations.LegalityTable :=
  fun _ _ input =>
    ⟨exec_of_not_accepted input, exec_of_accepted, fun _ _ pending reserved => ⟨_, step_of_reserved pending reserved⟩⟩

/-- Settles O10: the first two clauses are the lookup, the third the check, the fourth the refusal of SETUP. -/
theorem classifierLaw : Obligations.ClassifierLaw :=
  ⟨fun _ _ _ _ _ => classify_of_listed, fun _ _ => classify_of_unlisted, classifierOk_iff,
    fun _ notRefused notSetUp idle breaks =>
      exec_setup_of_refusal (setupRefusal_of_classifier notRefused notSetUp idle breaks)⟩

/-- Settles O14: nothing but RESET passes the mark. -/
theorem refusedUntilReset : Obligations.RefusedUntilReset :=
  fun _ refused => ⟨fun _ => exec_of_refused refused, _, rfl, rfl⟩

/-- Settles O12, reason by reason. -/
theorem refusalReasons : Obligations.RefusalReasons := by
  intro s notRefused
  refine ⟨fun setUp => exec_setup_of_refusal ?_, fun notSetUp => exec_tickBegin_of_refusal ?_,
    fun notSetUp busy => exec_setup_of_refusal ?_, fun setUp busy => exec_tickBegin_of_refusal ?_,
    fun idle => exec_step_of_refusal ?_, fun i => exec_output_of_input notRefused⟩
  · simp [setupRefusal, notRefused, setUp]
  · simp [tickRefusal, notRefused, notSetUp]
  · simp [setupRefusal, notRefused, notSetUp, busy]
  · simp [tickRefusal, notRefused, setUp, busy]
  · simp [stepRefusal, notRefused, idle]

/-- Settles O13 by the step's equation for a reserved word. -/
theorem reservedWordRefused : Obligations.ReservedWordRefused :=
  fun _ _ _ => step_of_reserved

/-- Settles O15: an operation is refused or has its effect, and a step runs one at most. -/
theorem everyOperationGoesOn : Obligations.EveryOperationGoesOn :=
  ⟨exec_next, step_next⟩

/-- Settles O16 by the step's equation for an operation. -/
theorem stepRunsTheDecodedOperation : Obligations.StepRunsTheDecodedOperation :=
  fun _ _ _ _ => step_of_op

/-- Settles O17 by the step's equation for no line. -/
theorem waitsForTheNextInput : Obligations.WaitsForTheNextInput :=
  fun _ => step_of_nil

/-- Settles O25: the two refusals of a phase word that the block issues. -/
theorem phaseWordsFollowPhase : Obligations.PhaseWordsFollowPhase :=
  fun _ issued => ⟨exec_phIdle_of_held issued, fun _ => exec_phase_instr_of_notHeld issued.1⟩

/-- Settles O6: no line is registered, SETUP is not done, and no tick is in progress. -/
theorem afterResetTicksAreRefused : Obligations.AfterResetTicksAreRefused := by
  intro s regs
  have notRefused : s.regs.refused = false := by rw [regs]; rfl
  rw [exec_irqDone_of_notRefused notRefused, exec_irqPreamble_of_notRefused notRefused]
  refine ⟨congrArg _ (handler_of_shut (.inl ?_)), congrArg _ (handler_of_shut (.inl ?_)),
    exec_tickBegin_of_refusal ?_, exec_step_of_refusal ?_⟩
  · rw [regs]; rfl
  · rw [regs]; rfl
  · simp [tickRefusal, regs, State.reset]
  · simp [stepRefusal, regs, State.reset]

/-- Settles O5: the one condition that is not a register's reset value is the classifier's check. -/
theorem setupAcceptedAfterReset : Obligations.SetupAcceptedAfterReset :=
  ⟨rfl, rfl, rfl, classifierOk_initial⟩

/-- Settles O3: the state after reset holds the registers that RESET writes. -/
theorem resetStateRegisters : Obligations.ResetStateRegisters :=
  ⟨rfl, rfl, obs_resetRegs⟩

end Sys2Proof.Proofs
end

section
/-! PROOFS. The commands an operation issues, said once for every operation, and the operations they belong to
(spec/46_external_ports.md §2 to §4). -/

namespace Sys2Proof.Machine

open Sys2Proof Sys2Proof.Safety

/-- The operation of a port command (R49, R50). -/
def portInstr : PortEvent → Instr
  | .drvBegin .. => .drvBegin
  | .drvSetCrc .. => .drvSetCrc
  | .drvSetFrequency .. => .drvSetFrequency
  | .drvStartChannelScan .. => .drvStartChannelScan
  | .drvStartReceive .. => .drvStartReceive
  | .drvReadData .. => .drvReadData
  | .drvStartTransmit .. => .drvStartTransmit
  | .drvGetRssi .. => .drvGetRssi
  | .drvGetSnr .. => .drvGetSnr
  | .drvGetFreqError .. => .drvGetFreqError
  | .drvGetModemStatus .. => .drvGetModemStatus
  | .drvAttachIrq .. => .drvAttachIrq
  | .outqEmpty .. => .outqEmpty
  | .outqDequeue .. => .outqDequeue
  | .inqPush .. => .inqPush
  | .displayShow .. => .displayShow
  | .logEmit .. => .logEmit

/-- The word of a command is that of its operation. -/
theorem word_eq_encode (e : PortEvent) : e.word = encode (portInstr e) := by
  cases e <;> rfl

/-- A command carries the word of its operation and of no other. -/
theorem word_eq_encode_iff (e : PortEvent) (c : Instr) : e.word = encode c ↔ portInstr e = c := by
  rw [word_eq_encode]
  exact ⟨encode_injective, congrArg encode⟩

/-- Counting the commands of a word is counting its operation. -/
theorem countOf_eq_count (c : Instr) (events : List PortEvent) : countOf c events = (events.map portInstr).count c := by
  rw [countOf, List.count, List.countP_map]
  refine List.countP_congr fun e _ => ?_
  simp [word_eq_encode_iff]

/-- The operations of the commands of a call behind the frequency switch (R88 to R91): the switch in a split
configuration alone, and then the call, unless the switch failed. -/
theorem SwitchedCall.instrs {s : State} {dir : Dir} {event : Status → PortEvent} {st : Status} {ev : List PortEvent}
    {c : Instr} (h : SwitchedCall s dir event st ev) (call : ∀ st, portInstr (event st) = c) :
    (ev.map portInstr).Sublist ((if split s then [Instr.drvSetFrequency] else []) ++ [c]) := by
  cases h with
  | direct unsplit => simp [unsplit, call]
  | failed isSplit _ => simp [isSplit, portInstr]
  | switched isSplit =>
    simp only [isSplit, if_true, List.map_cons, List.map_nil, call]
    exact .refl _

/-- The operations of a phase's log, which is at most one record. -/
theorem instrs_of_log {logs : List PortEvent} (h : logs = [] ∨ ∃ r, logs = [.logEmit r]) :
    (logs.map portInstr).Sublist [.logEmit] := by
  obtain rfl | ⟨r, rfl⟩ := h
  · exact List.nil_sublist _
  · exact .refl _

/-- The operations whose commands a phase issues in any case (R126). -/
def phaseLeast : Phase → List Instr
  | .txComplete => [.logEmit]
  | .txAttempt => [.outqEmpty]
  | _ => []

/-- The operations whose commands a phase may issue, in an order that allows each way the phase can go (R126). -/
def phaseMost (splitConfig : Bool) : Phase → List Instr
  | .txComplete => [.logEmit]
  | .rxConsume =>
    [.drvReadData, .drvGetRssi, .drvGetSnr, .drvGetFreqError, .inqPush, .displayShow, .logEmit]
  | .preambleArm => (if splitConfig then [.drvSetFrequency] else []) ++ [.drvStartReceive] ++ [.logEmit]
  | .scanRearm => (if splitConfig then [.drvSetFrequency] else []) ++ [.drvStartChannelScan] ++ [.logEmit]
  | .txAttempt =>
    [.outqEmpty] ++ (if splitConfig then [] else [.drvGetModemStatus]) ++ [.outqDequeue] ++
      ((if splitConfig then [.drvSetFrequency] else []) ++ [.drvStartTransmit]) ++ [.logEmit]
  | _ => []

/-- The table of R126 for the phases counts these two lists. -/
theorem phaseBudget_eq (splitConfig : Bool) (p : Phase) (c : Instr) :
    phaseBudget splitConfig p c = ((phaseLeast p).count c, (phaseMost splitConfig p).count c) := by
  cases p with
  | txComplete | rxConsume => cases c <;> rfl
  | preambleArm | scanRearm | txAttempt => cases splitConfig <;> cases c <;> rfl
  | _ => rfl

/-- The commands of a phase lie between the two lists (R126). -/
theorem PhaseEvents.instrs {s : State} {p : Phase} {ev : List PortEvent} (h : PhaseEvents s p ev) :
    (phaseLeast p).Sublist (ev.map portInstr) ∧ (ev.map portInstr).Sublist (phaseMost (split s) p) := by
  cases h with
  | silent p notComplete notAttempt =>
    refine ⟨?_, List.nil_sublist _⟩
    cases p with
    | txComplete => exact absurd rfl notComplete
    | txAttempt => exact absurd rfl notAttempt
    | _ => exact .refl _
  | completed => exact ⟨.refl _, .refl _⟩
  | readFailed => simp [phaseLeast, phaseMost, portInstr]
  | unrecognized => simp [phaseLeast, phaseMost, portInstr]
  | accepted =>
    refine ⟨List.nil_sublist _, ?_⟩
    change [Instr.drvReadData, .inqPush, .displayShow].Sublist (phaseMost true .rxConsume)
    decide
  | armed _ _ _ call log =>
    refine ⟨List.nil_sublist _, ?_⟩
    rw [List.map_append]
    exact (call.instrs fun _ => rfl).append (instrs_of_log log)
  | scanned _ _ _ call log =>
    refine ⟨List.nil_sublist _, ?_⟩
    rw [List.map_append]
    exact (call.instrs fun _ => rfl).append (instrs_of_log log)
  | nothingToSend => simp [phaseLeast, phaseMost, portInstr]
  | deferred _ unsplit => simp [phaseLeast, phaseMost, portInstr, unsplit]
  | attempted _ probe _ _ _ _ probed call log =>
    have asked : probe.map portInstr = if split s then [] else [.drvGetModemStatus] := by
      obtain ⟨isSplit, rfl⟩ | ⟨unsplit, ms, rfl⟩ := probed
      · simp [isSplit]
      · simp [unsplit, portInstr]
    simp only [List.map_append, asked]
    refine ⟨by simp [phaseLeast, portInstr], ?_⟩
    exact ((List.Sublist.refl _).append (call.instrs fun _ => rfl)).append (instrs_of_log log)

/-- The operations whose commands SETUP issues in any case (R126). -/
def setupLeast : List Instr := [Instr.drvBegin] ++ [Instr.drvSetCrc] ++ [Instr.drvAttachIrq, Instr.drvAttachIrq]

/-- The operations whose commands SETUP may issue: a failing DRV_SET_CRC is logged and ends CAP.rx, so that no scan
comes after it (R63, R66). -/
def setupMost (splitConfig crcFails : Bool) : List Instr :=
  [Instr.drvBegin, Instr.logEmit] ++ (if crcFails then [Instr.drvSetCrc, Instr.logEmit] else [Instr.drvSetCrc]) ++
    [Instr.drvAttachIrq, Instr.drvAttachIrq] ++
      if crcFails then []
      else (if splitConfig then [Instr.drvSetFrequency] else []) ++ [Instr.drvStartChannelScan] ++ [Instr.logEmit]

/-- The table of R126 for SETUP allows these lists. -/
theorem setupBudget_bounds (splitConfig crcFails : Bool) (c : Instr) :
    (setupBudget splitConfig c).1 ≤ setupLeast.count c ∧
      (setupMost splitConfig crcFails).count c ≤ (setupBudget splitConfig c).2 := by
  cases splitConfig <;> cases crcFails <;> cases c <;> decide

/-- The operations of SETUP's begin step. -/
theorem instrs_beginEvents (s : State) (st : Status) :
    [Instr.drvBegin].Sublist ((beginEvents s st).map portInstr) ∧
      ((beginEvents s st).map portInstr).Sublist [.drvBegin, .logEmit] := by
  rw [beginEvents_eq]
  cases beginError s st <;> simp [beginEvent, portInstr]

/-- The operations of SETUP's CRC step. -/
theorem instrs_crcEvents (crc : Status) :
    (crcEvents crc).map portInstr =
      if decide (crc ≠ statusOk) then [Instr.drvSetCrc, Instr.logEmit] else [Instr.drvSetCrc] := by
  rw [crcEvents_eq]
  by_cases ok : crc = statusOk <;> simp [ok, portInstr]

/-- The commands of SETUP lie between the two lists (R126). -/
theorem setupBody_instrs (s : State) :
    ∃ ev crcFails, (setupBody s).env.out = s.env.out ++ ev ∧ setupLeast.Sublist (ev.map portInstr) ∧
      (ev.map portInstr).Sublist (setupMost (split s) crcFails) := by
  obtain ⟨st, crc, scan, out, -, scanned⟩ := setupBody_out s
  obtain ⟨least, most⟩ := instrs_beginEvents s st
  have scanMost : (scan.map portInstr).Sublist
      (if decide (crc ≠ statusOk) then []
      else (if split s then [Instr.drvSetFrequency] else []) ++ [Instr.drvStartChannelScan] ++ [Instr.logEmit]) := by
    obtain ⟨-, rfl, -⟩ | ⟨allowed, a, ev, call, logged⟩ := scanned
    · exact List.nil_sublist _
    · have ok : crc = statusOk := by simpa using (Bool.and_eq_true_iff.mp allowed).2
      have instrs := call.instrs (c := .drvStartChannelScan) fun _ => rfl
      rw [if_neg (by simp [ok])]
      obtain ⟨rfl, -⟩ | ⟨rfl, -⟩ := logged
      · exact instrs.trans (List.sublist_append_left _ _)
      · rw [List.map_append]
        exact instrs.append (.refl _)
  have crcLeast : [Instr.drvSetCrc].Sublist
      (if decide (crc ≠ statusOk) then [Instr.drvSetCrc, Instr.logEmit] else [Instr.drvSetCrc]) := by
    split <;> simp
  refine ⟨_, decide (crc ≠ statusOk), out, ?_⟩
  simp only [List.map_append, instrs_crcEvents, List.map_cons, List.map_nil, portInstr]
  exact ⟨((least.append crcLeast).append (.refl _)).trans (List.sublist_append_left _ _),
    ((most.append (.refl _)).append (.refl _)).append scanMost⟩

/-- The operations whose commands the operation `i` may add at `s`. -/
inductive Adds (i : Instr) (s : State) : List Instr → Prop where
  /-- none: a refused word, RESET, TICK_BEGIN, the interrupt words -/
  | none : Adds i s []
  /-- an accepted SETUP -/
  | setup (is : i = .setup) (crcFails : Bool) (l : List Instr) (within : l.Sublist (setupMost (split s) crcFails)) :
      Adds i s l
  /-- a phase -/
  | phase (p : Phase) (runs : Runs i s p) (l : List Instr) (within : l.Sublist (phaseMost (split s) p)) : Adds i s l
  /-- a command word issued by the block: its own command -/
  | command (output : isInput i = false) : Adds i s [i]

/-- Every operation adds its commands to those issued before (20_memory.md R40). -/
theorem exec_adds {i : Instr} {s t : State} (run : exec i s = .next t) :
    ∃ ev, t.env.out = s.env.out ++ ev ∧ Adds i s (ev.map portInstr) := by
  have nothing {u : State} (out : u.env.out = s.env.out) :
      ∃ ev, u.env.out = s.env.out ++ ev ∧ Adds i s (ev.map portInstr) :=
    ⟨[], by rw [out, List.append_nil], .none⟩
  cases exec_cases run with
  | refused why _ result => exact result ▸ nothing rfl
  | reset _ result => exact result ▸ nothing rfl
  | setup is _ result =>
    obtain ⟨ev, crcFails, out, -, most⟩ := setupBody_instrs s
    exact ⟨ev, result ▸ out, .setup is crcFails _ most⟩
  | tickBegin _ _ result => exact result ▸ nothing rfl
  | phase p runs result =>
    obtain ⟨ev, out, events⟩ := runPhase_out s
    exact ⟨ev, result ▸ out, .phase _ (runs.held ▸ runs) _ events.instrs.2⟩
  | done _ _ result => exact result ▸ nothing (by rw [handler_env])
  | preamble _ _ result => exact result ▸ nothing (by rw [handler_env])
  | idle _ _ _ result => exact result ▸ nothing rfl
  | command output _ effect =>
    obtain ⟨e, out, word⟩ := effect.out
    have own : [e].map portInstr = [i] := congrArg (· :: []) ((word_eq_encode_iff e i).mp word)
    exact ⟨[e], out, own ▸ .command output⟩

/-- SETUP issues no transmit start, and in an unsplit configuration no frequency command. -/
theorem not_mem_setupMost (splitConfig crcFails : Bool) :
    .drvStartTransmit ∉ setupMost splitConfig crcFails ∧ .drvSetFrequency ∉ setupMost false crcFails := by
  cases splitConfig <;> cases crcFails <;> decide

/-- No phase issues a frequency command in an unsplit configuration (R93). -/
theorem setFrequency_not_mem_phaseMost (p : Phase) : .drvSetFrequency ∉ phaseMost false p := by
  cases p <;> decide

/-- Only PH_TX_ATTEMPT issues a transmit start. -/
theorem startTransmit_not_mem_phaseMost {splitConfig : Bool} {p : Phase} (other : p ≠ .txAttempt) :
    .drvStartTransmit ∉ phaseMost splitConfig p := by
  cases p with
  | txAttempt => exact absurd rfl other
  | _ => cases splitConfig <;> decide

/-- In an unsplit configuration the frequency command comes from its own word alone (R93). -/
theorem Adds.not_setFrequency {i : Instr} {s : State} {l : List Instr} (h : Adds i s l) (unsplit : split s = false)
    (other : i ≠ .drvSetFrequency) : .drvSetFrequency ∉ l := by
  cases h with
  | none => exact List.not_mem_nil
  | setup _ crcFails _ within => exact fun mem => (not_mem_setupMost true crcFails).2 (unsplit ▸ within.subset mem)
  | phase p _ _ within => exact fun mem => setFrequency_not_mem_phaseMost p (unsplit ▸ within.subset mem)
  | command => simpa using other.symm

/-- An input that does not run PH_TX_ATTEMPT starts no transmit. -/
theorem Adds.not_startTransmit {i : Instr} {s : State} {l : List Instr} (h : Adds i s l) (input : isInput i = true)
    (other : s.regs.phase ≠ .txAttempt) : .drvStartTransmit ∉ l := by
  cases h with
  | none => exact List.not_mem_nil
  | setup _ crcFails _ within => exact fun mem => (not_mem_setupMost _ crcFails).1 (within.subset mem)
  | phase p runs _ within =>
    exact fun mem => startTransmit_not_mem_phaseMost (runs.held ▸ other) (within.subset mem)
  | command output => exact absurd (output.symm.trans input) Bool.false_ne_true

/-- No command in a list carries the word of an operation that the list's operations leave out. -/
theorem word_ne_of_not_mem {ev : List PortEvent} {c : Instr} (h : c ∉ ev.map portInstr) :
    ∀ e ∈ ev, e.word ≠ encode c :=
  fun e mem word => h ((word_eq_encode_iff e c).mp word ▸ List.mem_map_of_mem mem)

/-- The direction that a command of the radio goes in: a start sends, an arm receives (R89, R90, R91). -/
def radioDir : PortEvent → Option Dir
  | .drvStartTransmit .. => some .tx
  | .drvStartReceive .. => some .rx
  | .drvStartChannelScan .. => some .rx
  | _ => none

/-- In a split configuration the call behind the switch comes directly after a successful switch (R92). -/
theorem SwitchedCall.prepared {s : State} {dir : Dir} {event : Status → PortEvent} {st : Status} {ev : List PortEvent}
    (h : SwitchedCall s dir event st ev) (isSplit : split s = true) (call : ∀ st, radioDir (event st) = some dir)
    {e : PortEvent} {d : Dir} (mem : e ∈ ev) (goes : radioDir e = some d) :
    List.IsInfix [.drvSetFrequency (freqOf d s) statusOk, e] ev := by
  cases h with
  | direct unsplit => exact absurd (unsplit.symm.trans isSplit) Bool.false_ne_true
  | failed =>
    obtain rfl := List.mem_singleton.mp mem
    cases goes
  | switched =>
    obtain rfl | mem := List.mem_cons.mp mem
    · cases goes
    · obtain rfl := List.mem_singleton.mp mem
      obtain rfl := Option.some.inj (goes.symm.trans (call st))
      exact List.infix_rfl

/-- The log of a phase holds no command of the radio. -/
theorem radioDir_of_log {logs : List PortEvent} (h : logs = [] ∨ ∃ r, logs = [.logEmit r]) {e : PortEvent}
    (mem : e ∈ logs) : radioDir e = none := by
  obtain rfl | ⟨r, rfl⟩ := h
  · cases mem
  · obtain rfl := List.mem_singleton.mp mem
    rfl

/-- In a split configuration every start and every arm of a phase comes directly after a successful switch of its
direction (R92). -/
theorem PhaseEvents.prepared {s : State} {p : Phase} {ev : List PortEvent} (h : PhaseEvents s p ev)
    (isSplit : split s = true) {e : PortEvent} {d : Dir} (mem : e ∈ ev) (goes : radioDir e = some d) :
    List.IsInfix [.drvSetFrequency (freqOf d s) statusOk, e] ev := by
  have notLogged {logs : List PortEvent} (log : logs = [] ∨ ∃ r, logs = [.logEmit r]) : e ∉ logs :=
    fun mem => Option.some_ne_none d (goes.symm.trans (radioDir_of_log log mem))
  cases h with
  | armed _ ev logs call log =>
    have inCall := (List.mem_append.mp mem).resolve_right (notLogged log)
    exact (call.prepared isSplit (fun _ => rfl) inCall goes).trans (List.prefix_append _ _).isInfix
  | scanned _ ev logs call log =>
    have inCall := (List.mem_append.mp mem).resolve_right (notLogged log)
    exact (call.prepared isSplit (fun _ => rfl) inCall goes).trans (List.prefix_append _ _).isInfix
  | attempted _ probe ev logs m _ probed call log =>
    obtain ⟨-, rfl⟩ | ⟨unsplit, -⟩ := probed
    · have inCall : e ∈ ev := by
        have := (List.mem_append.mp mem).resolve_right (notLogged log)
        simp only [List.append_nil, List.cons_append, List.nil_append, List.mem_cons] at this
        obtain rfl | rfl | this := this
        · cases goes
        · cases goes
        · exact this
      exact (call.prepared isSplit (fun _ => rfl) inCall goes).trans (List.infix_append _ _ _)
    · exact absurd (unsplit.symm.trans isSplit) Bool.false_ne_true
  | silent => cases mem
  | completed | readFailed | unrecognized | accepted | nothingToSend | deferred =>
    have silent : radioDir e = none := by
      simp only [List.mem_cons, List.not_mem_nil, or_false] at mem
      rcases mem with rfl | rfl | rfl | rfl | rfl <;> rfl
    exact absurd (goes.symm.trans silent) (Option.some_ne_none d)

/-- Two commands one directly after the other, with what comes before and after them. -/
theorem exists_append_of_infix {a b : PortEvent} {ev : List PortEvent} (h : [a, b].IsInfix ev) :
    ∃ before after, ev = before ++ a :: b :: after := by
  obtain ⟨before, after, rfl⟩ := h
  exact ⟨before, after, by simp⟩

/-- A call behind the frequency switch issues the frequency command and the call, and nothing else. -/
theorem SwitchedCall.mem {s : State} {dir : Dir} {event : Status → PortEvent} {st : Status} {ev : List PortEvent}
    (h : SwitchedCall s dir event st ev) {e : PortEvent} (mem : e ∈ ev) :
    (∃ f answer, e = .drvSetFrequency f answer) ∨ e = event st := by
  cases h with
  | direct => exact .inr (List.mem_singleton.mp mem)
  | failed => exact .inl ⟨_, _, List.mem_singleton.mp mem⟩
  | switched =>
    obtain rfl | mem := List.mem_cons.mp mem
    · exact .inl ⟨_, _, rfl⟩
    · exact .inr (List.mem_singleton.mp mem)

/-- The begin step logs the kind of error that its answer names, with the answer (R63). -/
theorem cfgError_mem_beginEvents {s : State} {st st' : Status} {k : ErrKind} :
    .logEmit (.cfgError k st') ∈ beginEvents s st ↔ beginError s st = some k ∧ st' = st := by
  rw [beginEvents_eq]
  cases beginError s st <;> simp [beginEvent, eq_comm]

/-- The commands of SETUP's scan step (R63, R66): the frequency switch, the scan, and the log of a failure. -/
def OfScanStep (e : PortEvent) : Prop :=
  (∃ f a, e = .drvSetFrequency f a) ∨ (∃ a, e = .drvStartChannelScan a) ∨ ∃ a, e = .logEmit (.setupScanFail a)

/-- A call of SCAN_ARM issues commands of the scan step alone. -/
theorem SwitchedCall.ofScanStep {s : State} {a : Status} {ev : List PortEvent}
    (call : SwitchedCall s .rx (fun st => .drvStartChannelScan st) a ev) {e : PortEvent} (mem : e ∈ ev) :
    OfScanStep e :=
  (call.mem mem).imp_right fun is => .inl ⟨a, is⟩

/-- What the commands of SETUP say of the answers to DRV_BEGIN and DRV_SET_CRC (R63): the kind of error that the first
names stands in the log, the second in the command, where the scan step issues neither. -/
theorem setup_answers_mem {s : State} {st crc : Status} {scan : List PortEvent}
    (scanOnly : ∀ e ∈ scan, OfScanStep e) :
    let events := beginEvents s st ++ crcEvents crc ++ [.drvAttachIrq .line0, .drvAttachIrq .line1] ++ scan
    (∀ revokes : ErrKind → Bool,
        (∃ k st', .logEmit (.cfgError k st') ∈ events ∧ revokes k = true) ↔ (beginError s st).any revokes = true) ∧
      ((∃ st', st' ≠ statusOk ∧ .drvSetCrc true st' ∈ events) ↔ crc ≠ statusOk) ∧
      ((∃ a, .logEmit (.setupScanFail a) ∈ events) ↔ ∃ a, .logEmit (.setupScanFail a) ∈ scan) := by
  intro events
  have notScan {e : PortEvent} (freq : ∀ f a, e ≠ .drvSetFrequency f a) (call : ∀ a, e ≠ .drvStartChannelScan a)
      (log : ∀ a, e ≠ .logEmit (.setupScanFail a)) : e ∉ scan := by
    intro mem
    obtain ⟨f, a, h⟩ | ⟨a, h⟩ | ⟨a, h⟩ := scanOnly e mem
    · exact freq f a h
    · exact call a h
    · exact log a h
  have cfgError (k : ErrKind) (st' : Status) :
      .logEmit (.cfgError k st') ∈ events ↔ beginError s st = some k ∧ st' = st := by
    have crcQuiet : .logEmit (.cfgError k st') ∉ crcEvents crc := by rw [crcEvents_eq]; split <;> simp
    simp [events, cfgError_mem_beginEvents, crcQuiet, notScan]
  have setCrc (st' : Status) : .drvSetCrc true st' ∈ events ↔ st' = crc := by
    have beginQuiet : .drvSetCrc true st' ∉ beginEvents s st := by
      rw [beginEvents_eq]
      cases beginError s st <;> simp [beginEvent]
    have called : .drvSetCrc true st' ∈ crcEvents crc ↔ st' = crc := by rw [crcEvents_eq]; split <;> simp
    simp [events, beginQuiet, called, notScan]
  have scanFail (a : Status) : .logEmit (.setupScanFail a) ∈ events ↔ .logEmit (.setupScanFail a) ∈ scan := by
    have beginQuiet : .logEmit (.setupScanFail a) ∉ beginEvents s st := by
      rw [beginEvents_eq]
      cases beginError s st <;> simp [beginEvent]
    have crcQuiet : .logEmit (.setupScanFail a) ∉ crcEvents crc := by rw [crcEvents_eq]; split <;> simp
    simp [events, beginQuiet, crcQuiet]
  simp [cfgError, setCrc, scanFail, Option.any_eq_true]

end Sys2Proof.Machine
end

section
/-! PROOFS. The obligations about the commands that operations issue (spec/40_setup.md R69,
spec/43_frequency_switch.md R92, R93, spec/46_external_ports.md R126). -/

namespace Sys2Proof.Proofs

open Sys2Proof Sys2Proof.Machine Sys2Proof.Safety

/-- Settles O37: what an operation adds holds no frequency command where the switch issues none. -/
theorem unsplitNeverReprograms : Obligations.UnsplitNeverReprograms := by
  intro i s t run
  obtain ⟨ev, out, adds⟩ := exec_adds run
  refine ⟨ev, out, fun shared other => word_ne_of_not_mem (adds.not_setFrequency ?_ other)⟩
  exact Bool.eq_false_iff.mpr fun isSplit => (split_eq_true_iff s).mp isSplit shared

/-- Settles O38: every command of the radio in a phase's list comes directly after its switch. -/
theorem splitReprogramsBeforeUse : Obligations.SplitReprogramsBeforeUse := by
  intro i s t p runs differ run
  obtain rfl := runs_result runs run
  obtain ⟨ev, out, events⟩ := runPhase_out s
  have prepared {e : PortEvent} {d : Dir} (mem : e ∈ ev) (goes : radioDir e = some d) :=
    exists_append_of_infix (events.prepared ((split_eq_true_iff s).mpr differ) mem goes)
  exact ⟨ev, out, fun _ _ mem => prepared mem rfl, fun _ _ mem => prepared mem rfl, fun _ mem => prepared mem rfl⟩

/-- Settles O39: the commands of SETUP and of a phase lie between two lists, and the table counts those. -/
theorem commandBudgets : Obligations.CommandBudgets := by
  intro i s t run
  by_cases setUp : i = .setup ∧ Accepted .setup s
  · obtain ⟨rfl, accepted⟩ := setUp
    have ⟨_, _, idle, _⟩ := accepted
    obtain rfl := setup_result accepted run
    obtain ⟨ev, crcFails, out, least, most⟩ := setupBody_instrs s
    refine ⟨ev, out, fun _ _ c => ?_, fun p runs => ?_⟩
    · obtain ⟨low, high⟩ := setupBudget_bounds (split s) crcFails c
      rw [countOf_eq_count]
      exact ⟨low.trans (least.count_le c), (most.count_le c).trans high⟩
    · exact absurd idle runs.busy
  by_cases ticks : ∃ p, Runs i s p
  · obtain ⟨p, runs⟩ := ticks
    obtain rfl := runs_result runs run
    obtain ⟨ev, out, events⟩ := runPhase_out s
    refine ⟨ev, out, fun is accepted => absurd ⟨is, accepted⟩ setUp, fun q held c => ?_⟩
    obtain rfl := held.held
    obtain ⟨least, most⟩ := events.instrs
    rw [phaseBudget_eq, countOf_eq_count]
    exact ⟨least.count_le c, most.count_le c⟩
  · obtain ⟨ev, out, -⟩ := exec_adds run
    exact ⟨ev, out, fun is accepted => absurd ⟨is, accepted⟩ setUp, fun p runs => absurd ⟨p, runs⟩ ticks⟩

/-- Settles O8: the answers stand in the commands, and the capabilities are what the three steps left of them. -/
theorem setupCapabilities : Obligations.SetupCapabilities := by
  intro s t accepted both run
  obtain rfl := setup_result accepted run
  obtain ⟨st, crc, scan, out, tx, scanned⟩ := setupBody_out s
  rw [both] at tx scanned
  have scanOnly : ∀ e ∈ scan, OfScanStep e := by
    obtain ⟨-, rfl, -⟩ | ⟨-, a, ev, call, ⟨rfl, -⟩ | ⟨rfl, -⟩⟩ := scanned
    · exact fun _ mem => absurd mem List.not_mem_nil
    · exact fun _ mem => call.ofScanStep mem
    · intro e mem
      obtain mem | mem := List.mem_append.mp mem
      · exact call.ofScanStep mem
      · exact .inr (.inr ⟨a, List.mem_singleton.mp mem⟩)
  obtain ⟨cfgError, setCrc, scanFail⟩ := setup_answers_mem (s := s) (st := st) (crc := crc) scanOnly
  refine ⟨_, out, ?_, ?_⟩
  · rw [cfgError, setCrc, tx]
    simp [or_iff_not_imp_left]
  · rw [cfgError, setCrc, scanFail]
    obtain ⟨barred, -, rx⟩ | ⟨allowed, a, ev, call, ⟨rfl, rx⟩ | ⟨rfl, rx⟩⟩ := scanned
    · have lost : (beginError s st).any revokesRx = true ∨ crc ≠ statusOk := by
        simpa [or_iff_not_imp_left] using barred
      exact iff_of_true rx (lost.imp_right .inl)
    · have quiet : ¬∃ a, .logEmit (.setupScanFail a) ∈ scan := by
        rintro ⟨b, mem⟩
        obtain ⟨f, answer, is⟩ | is := call.mem mem <;> cases is
      have kept : ¬(beginError s st).any revokesRx = true ∧ ¬crc ≠ statusOk := by simpa using allowed
      exact iff_of_false (by simp [rx]) (not_or.mpr ⟨kept.1, not_or.mpr ⟨kept.2, quiet⟩⟩)
    · exact iff_of_true rx (.inr (.inr ⟨a, by simp⟩))

end Sys2Proof.Proofs
end

section
/-! PROOFS. The invariant of the block's registers, operation by operation (spec/41_scheduler_tick.md §6,
spec/44_interrupt_latch_sync.md, spec/45_guard_timer.md). -/

namespace Sys2Proof.Machine

open Sys2Proof Sys2Proof.Safety

/-- What the invariant says of the registers that the phases write: the part a phase rule has to re-establish. -/
structure PhaseInv (p : Params) (r : Regs) : Prop where
  gateWindow : r.gate = !gated r.phase
  completesInFlight : r.phase = .txComplete → r.txinfl = true
  branchIdle : gated r.phase = true → r.phase ≠ .txComplete → r.txinfl = false
  armsFree : r.phase = .preambleArm → r.rxbusy = false
  attemptAllowed : r.phase = .txAttempt → r.cap.tx = true ∧ r.txinfl = false ∧ r.guard.run = false
  guardNotInFlight : r.txinfl = true → r.guard.run = false
  latchesCleared : r.phase = .gateOn → r.latch = ⟨false, false⟩
  branchHasLatch : r.phase = .gateOff → r.latch.any = true
  resultOk : p.txInflightOnStartFailure = false → r.txinfl = true → r.txres = statusOk

theorem phaseInv_of_blockInv {s : State} (inv : BlockInv s) : PhaseInv s.params s.regs :=
  ⟨inv.gateWindow, inv.completesInFlight, inv.branchIdle, inv.armsFree, inv.attemptAllowed, inv.guardNotInFlight,
    inv.latchesCleared, inv.branchHasLatch, inv.resultOk⟩

/-- Outside the gated window: the gate is open, and a transmit in flight has a guard at rest and a successful status. -/
theorem PhaseInv.of_open {p : Params} {r : Regs} (gate : r.gate = true) (window : gated r.phase = false)
    (attemptAllowed : r.phase = .txAttempt → r.cap.tx = true ∧ r.txinfl = false ∧ r.guard.run = false)
    (branchHasLatch : r.phase = .gateOff → r.latch.any = true)
    (guardNotInFlight : r.txinfl = true → r.guard.run = false)
    (resultOk : p.txInflightOnStartFailure = false → r.txinfl = true → r.txres = statusOk) : PhaseInv p r where
  gateWindow := by rw [gate, window]; rfl
  completesInFlight held := by simp [held, gated] at window
  branchIdle inWindow _ := absurd (window.symm.trans inWindow) Bool.false_ne_true
  armsFree held := by simp [held, gated] at window
  attemptAllowed := attemptAllowed
  guardNotInFlight := guardNotInFlight
  latchesCleared held := by simp [held, gated] at window
  branchHasLatch := branchHasLatch
  resultOk := resultOk

/-- In the gated window past PH_TX_COMPLETE: the gate is closed and no transmit is in flight. -/
theorem PhaseInv.of_branch {p : Params} {r : Regs} (gate : r.gate = false) (window : gated r.phase = true)
    (notComplete : r.phase ≠ .txComplete) (quiet : r.txinfl = false)
    (armsFree : r.phase = .preambleArm → r.rxbusy = false)
    (latchesCleared : r.phase = .gateOn → r.latch = ⟨false, false⟩) : PhaseInv p r where
  gateWindow := by rw [gate, window]; rfl
  completesInFlight held := absurd held notComplete
  branchIdle _ _ := quiet
  armsFree := armsFree
  attemptAllowed held := by simp [held, gated] at window
  guardNotInFlight inFlight := absurd (quiet.symm.trans inFlight) Bool.false_ne_true
  latchesCleared := latchesCleared
  branchHasLatch held := by simp [held, gated] at window
  resultOk _ inFlight := absurd (quiet.symm.trans inFlight) Bool.false_ne_true

section

variable {s : State} (inv : PhaseInv s.params s.regs)
include inv

/-- The gate is open outside the window. -/
theorem PhaseInv.gate_open (window : gated s.regs.phase = false) : s.regs.gate = true := by
  rw [inv.gateWindow, window]; rfl

/-- The gate is closed inside the window. -/
theorem PhaseInv.gate_closed (window : gated s.regs.phase = true) : s.regs.gate = false := by
  rw [inv.gateWindow, window]; rfl

/-- PH_SAMPLE goes to PH_GATE_OFF only with a latch set (R73). -/
theorem PhaseInv.phSample (held : s.regs.phase = .sample) :
    PhaseInv (phSample s).params (phSample s).regs := by
  rw [phSample_eq]
  refine .of_open (inv.gate_open (by rw [held]; rfl)) ?_ ?_ ?_ inv.guardNotInFlight inv.resultOk <;>
    cases s.regs.latch.any <;> simp [gated]

/-- PH_GATE_OFF closes the gate and goes by TXINFL (R74). -/
theorem PhaseInv.phGateOff : PhaseInv (phGateOff s).params (phGateOff s).regs := by
  rw [phGateOff_eq]
  cases inFlight : s.regs.txinfl with
  | false => exact .of_branch rfl rfl (by simp) inFlight (by simp) (by simp)
  | true =>
    exact { gateWindow := rfl, completesInFlight := fun _ => inFlight, branchIdle := by simp, armsFree := by simp
            attemptAllowed := by simp, guardNotInFlight := inv.guardNotInFlight, latchesCleared := by simp
            branchHasLatch := by simp, resultOk := inv.resultOk }

/-- PH_TX_COMPLETE ends the transmit in flight, so that the guard it starts runs with none (R75, R108). -/
theorem PhaseInv.phTxComplete (held : s.regs.phase = .txComplete) :
    PhaseInv (phTxComplete s).params (phTxComplete s).regs := by
  rw [phTxComplete_regs]
  refine .of_branch (inv.gate_closed (by rw [held]; rfl)) ?_ ?_ rfl ?_ ?_ <;>
    cases s.params.rescanAfterTx <;> simp [gated]

/-- PH_RX_CONSUME leaves RXBUSY 0 for PH_PREAMBLE_ARM (R76). -/
theorem PhaseInv.phRxConsume (held : s.regs.phase = .rxConsume) :
    PhaseInv (phRxConsume s).params (phRxConsume s).regs := by
  have window : gated s.regs.phase = true := by rw [held]; rfl
  rw [phRxConsume_regs]
  exact .of_branch (inv.gate_closed window) rfl (by simp) (inv.branchIdle window (by simp [held])) (fun _ => rfl)
    (by simp)

theorem PhaseInv.phPreambleArm (held : s.regs.phase = .preambleArm) :
    PhaseInv (phPreambleArm s).params (phPreambleArm s).regs := by
  have window : gated s.regs.phase = true := by rw [held]; rfl
  rw [phPreambleArm_regs]
  exact .of_branch (inv.gate_closed window) rfl (by simp) (inv.branchIdle window (by simp [held])) (by simp) (by simp)

theorem PhaseInv.phScanRearm (held : s.regs.phase = .scanRearm) :
    PhaseInv (phScanRearm s).params (phScanRearm s).regs := by
  have window : gated s.regs.phase = true := by rw [held]; rfl
  rw [phScanRearm_regs]
  exact .of_branch (inv.gate_closed window) rfl (by simp) (inv.branchIdle window (by simp [held])) (by simp) (by simp)

/-- PH_LATCH_CLEAR leaves both latches 0 for PH_GATE_ON (R79). -/
theorem PhaseInv.phLatchClear (held : s.regs.phase = .latchClear) :
    PhaseInv (phLatchClear s).params (phLatchClear s).regs := by
  have window : gated s.regs.phase = true := by rw [held]; rfl
  rw [phLatchClear_eq]
  exact .of_branch (inv.gate_closed window) rfl (by simp) (inv.branchIdle window (by simp [held])) (by simp)
    (fun _ => rfl)

theorem PhaseInv.phGateOn : PhaseInv (phGateOn s).params (phGateOn s).regs := by
  rw [phGateOn_eq]
  exact .of_open rfl rfl (by simp) (by simp) inv.guardNotInFlight inv.resultOk

/-- PH_GUARD_CHECK goes to PH_TX_ATTEMPT only as R83 allows, and the query starts no timer. -/
theorem PhaseInv.phGuardCheck (held : s.regs.phase = .guardCheck) :
    PhaseInv (phGuardCheck s).params (phGuardCheck s).regs := by
  have atRest (t : Time) (stopped : s.regs.guard.run = false) : (guardQuery t s.regs.guard).run = false := by
    rw [guardQuery_of_stopped t stopped, stopped]
  rw [phGuardCheck_regs]
  refine .of_open (inv.gate_open (by rw [held]; rfl)) ?_ ?_ ?_ (fun h => atRest _ (inv.guardNotInFlight h)) inv.resultOk
  · dsimp only
    split <;> rfl
  · dsimp only
    split
    · next allowed =>
      simp only [Bool.and_eq_true, guardElapsed_iff, Bool.not_eq_true'] at allowed
      obtain ⟨⟨stopped, tx⟩, quiet⟩ := allowed
      exact fun _ => ⟨tx, quiet, stopped⟩
    · simp
  · dsimp only
    split <;> simp

/-- PH_TX_ATTEMPT starts a transmit only with the guard at rest, and by default a failed one is not in flight (R84). -/
theorem PhaseInv.phTxAttempt (held : s.regs.phase = .txAttempt) :
    PhaseInv (phTxAttempt s).params (phTxAttempt s).regs := by
  obtain ⟨-, quiet, stopped⟩ := inv.attemptAllowed held
  have gate := inv.gate_open (by rw [held]; rfl)
  rw [(keeps_phTxAttempt s).params]
  obtain regs | ⟨st, regs⟩ := phTxAttempt_regs s
  · rw [regs]
    exact .of_open gate rfl (by simp) (by simp) inv.guardNotInFlight inv.resultOk
  · rw [regs, transmitStarted_regs]
    refine .of_open gate rfl (by simp) (by simp) (fun _ => stopped) fun quietFailures => ?_
    simp +contextual [quietFailures, quiet]

/-- Every phase rule keeps the part of the invariant that phases write (R71). -/
theorem PhaseInv.runPhase (busy : s.regs.phase ≠ .idle) :
    PhaseInv (runPhase s).params (runPhase s).regs := by
  rw [runPhase_eq_phaseRule]
  cases held : s.regs.phase with
  | idle => exact absurd held busy
  | sample => exact inv.phSample held
  | gateOff => exact inv.phGateOff
  | txComplete => exact inv.phTxComplete held
  | rxConsume => exact inv.phRxConsume held
  | preambleArm => exact inv.phPreambleArm held
  | scanRearm => exact inv.phScanRearm held
  | latchClear => exact inv.phLatchClear held
  | gateOn => exact inv.phGateOn
  | guardCheck => exact inv.phGuardCheck held
  | txAttempt => exact inv.phTxAttempt held

end

/-- After SETUP the invariant is what it says of the phases' registers, beside the registers that SETUP fixes. -/
theorem blockInv_of_phaseInv {s t : State} (inv : BlockInv s) (setUp : s.regs.setupDone = true)
    (pending : t.env.pending = s.env.pending) (irqreg : t.regs.irqreg = s.regs.irqreg)
    (setupDone : t.regs.setupDone = s.regs.setupDone) (active : t.regs.active = s.regs.active)
    (after : PhaseInv t.params t.regs) : BlockInv t where
  pendingInputs := pending ▸ inv.pendingInputs
  gateWindow := after.gateWindow
  tickAfterSetup _ := setupDone.trans setUp
  beforeSetup notSetUp := absurd (notSetUp.symm.trans (setupDone.trans setUp)) Bool.false_ne_true
  registered _ := irqreg.trans (inv.registered setUp)
  completesInFlight := after.completesInFlight
  branchIdle := after.branchIdle
  armsFree := after.armsFree
  attemptAllowed := after.attemptAllowed
  guardNotInFlight := after.guardNotInFlight
  latchesCleared := after.latchesCleared
  branchHasLatch := after.branchHasLatch
  activeZero := active.trans inv.activeZero
  resultOk := after.resultOk

/-- A phase rule keeps the invariant: it writes none of the registers that SETUP fixes. -/
theorem blockInv_runPhase {s : State} (inv : BlockInv s) (busy : s.regs.phase ≠ .idle) : BlockInv (runPhase s) := by
  obtain ⟨irqreg, setupDone, -, active, -⟩ := runPhase_fixed s
  exact blockInv_of_phaseInv inv (inv.tickAfterSetup busy) (keeps_runPhase s).pending irqreg setupDone active
    ((phaseInv_of_blockInv inv).runPhase busy)

/-- TICK_BEGIN opens no window: PH_SAMPLE is outside it. -/
theorem blockInv_tickBegin {s : State} (inv : BlockInv s) (accepted : Accepted .tickBegin s) :
    BlockInv (setPhase .sample s) := by
  obtain ⟨-, setUp, idle⟩ := accepted
  have gate := (phaseInv_of_blockInv inv).gate_open (by rw [idle]; rfl)
  exact blockInv_of_phaseInv inv setUp rfl rfl rfl rfl
    (.of_open gate rfl (by simp) (by simp) inv.guardNotInFlight inv.resultOk)

/-- A handler keeps the invariant: before SETUP its line is not registered, and a latch is set only while the gate is
open, so not at PH_GATE_ON. -/
theorem blockInv_handler {s : State} (inv : BlockInv s) (l : IrqLine) : BlockInv (handler l s) := by
  cases setUp : s.regs.setupDone with
  | false =>
    have unregistered : lineRegistered l s.regs = false := by
      rw [inv.beforeSetup setUp]
      cases l <;> rfl
    rwa [handler_of_shut (.inl unregistered)]
  | true =>
    have before := phaseInv_of_blockInv inv
    obtain regs | ⟨gate, regs⟩ := handler_regs l s
    · refine blockInv_of_phaseInv inv setUp (by simp) (by rw [regs]) (by rw [regs]) (by rw [regs]) ?_
      rwa [regs, handler_params]
    · refine blockInv_of_phaseInv inv setUp (by simp) (by rw [regs]) (by rw [regs]) (by rw [regs]) ?_
      rw [regs, handler_params]
      have notGateOn : s.regs.phase ≠ .gateOn := fun held => by simp [before.gateWindow, held, gated] at gate
      have latched : (setLatch l s.regs.latch).any = true := by cases l <;> simp [setLatch, Latch.any]
      exact { before with latchesCleared := fun held => absurd held notGateOn, branchHasLatch := fun _ => latched }

/-- The invariant at the reset registers: no tick, no transmit, nothing latched. -/
theorem blockInv_of_resetRegs {s : State} (pendingInputs : ∀ l ∈ s.env.pending, l.side = .input)
    (regs : s.regs = resetRegs) : BlockInv s := by
  constructor
  case pendingInputs => exact pendingInputs
  all_goals simp [regs, resetRegs, gated]

/-- The marks are no part of the invariant. -/
theorem blockInv_refuse {s : State} (inv : BlockInv s) (why : RefusalReason) : BlockInv (refuse why s) :=
  { inv with beforeSetup := fun notSetUp => by rw [refuse_regs, inv.beforeSetup notSetUp] }

/-- An accepted SETUP keeps the invariant: it starts from the reset registers and writes no register of a phase. -/
theorem blockInv_setupBody {s : State} (inv : BlockInv s) (accepted : Accepted .setup s) : BlockInv (setupBody s) := by
  obtain ⟨-, notSetUp, -⟩ := accepted
  obtain ⟨⟨c, f, regs, -, -⟩, -, -, -, -, pending⟩ := setupBody_spec s
  rw [inv.beforeSetup notSetUp] at regs
  constructor
  case pendingInputs => exact pending ▸ inv.pendingInputs
  all_goals simp [regs, resetRegs, gated]

/-- A line taken to the boundary leaves the registers, and what comes after it is still presented as input. -/
theorem blockInv_takeLine {s : State} {l : OpLine} {rest : List OpLine} (inv : BlockInv s)
    (pending : s.env.pending = l :: rest) : BlockInv (takeLine l rest s) :=
  { inv with pendingInputs := fun m mem => inv.pendingInputs m (pending ▸ List.mem_cons_of_mem l mem) }

/-- An operation presented as input keeps the invariant. -/
theorem blockInv_exec {i : Instr} {s t : State} (inv : BlockInv s) (input : isInput i = true ∨ s.port.side = .input)
    (run : exec i s = .next t) : BlockInv t := by
  cases exec_cases run with
  | refused why _ result => exact result ▸ blockInv_refuse inv why
  | reset _ result => exact result ▸ blockInv_of_resetRegs inv.pendingInputs rfl
  | setup _ accepted result => exact result ▸ blockInv_setupBody inv accepted
  | tickBegin _ accepted result => exact result ▸ blockInv_tickBegin inv accepted
  | phase p runs result => exact result ▸ blockInv_runPhase inv runs.busy
  | done _ _ result => exact result ▸ blockInv_handler inv .line0
  | preamble _ _ result => exact result ▸ blockInv_handler inv .line1
  | idle _ _ _ result => exact result ▸ inv
  | command output issued _ => exact absurd issued.2 (not_issued_of_input input output)

/-- A step keeps the invariant: the line it takes is presented as input. -/
theorem blockInv_step {s t : State} (inv : BlockInv s) (run : step s = .next t) : BlockInv t := by
  cases pending : s.env.pending with
  | nil =>
    obtain rfl := Host.Outcome.next.inj ((step_of_nil pending).symm.trans run)
    exact inv
  | cons l rest =>
    have taken := blockInv_takeLine inv pending
    cases word : decode l.word with
    | op i =>
      have side : (takeLine l rest s).port.side = .input := inv.pendingInputs l (by simp [pending])
      exact blockInv_exec taken (.inr side) ((step_of_op pending word).symm.trans run)
    | reserved =>
      obtain rfl := Host.Outcome.next.inj ((step_of_reserved pending word).symm.trans run)
      exact blockInv_refuse taken .rf1

/-- Without the transmit capability no tick of an invariant state is at PH_TX_ATTEMPT (R83). -/
theorem phase_ne_txAttempt_of_disabled {s : State} (inv : BlockInv s) (disabled : s.regs.cap.tx = false) :
    s.regs.phase ≠ .txAttempt :=
  fun held => Bool.false_ne_true (disabled.symm.trans (inv.attemptAllowed held).1)

/-- CAP.tx stays 0 over every operation but RESET (R17). -/
theorem capTx_stays_false {i : Instr} {s t : State} (run : exec i s = .next t) (notReset : i ≠ .reset)
    (disabled : s.regs.cap.tx = false) : t.regs.cap.tx = false :=
  Bool.eq_false_iff.mpr fun enabled =>
    Bool.false_ne_true (disabled.symm.trans (((exec_regWrite run).capTx notReset).1 enabled))

/-- Operations one after another: the first answers a next state, from which the others go on. -/
theorem execSeq_cons_next {i : Instr} {l : List Instr} {s t : State} (run : exec i s = .next t) :
    execSeq (i :: l) s = execSeq l t := by
  simp only [execSeq, run]

/-- Once CAP.tx is 0, inputs without RESET keep it so and start no transmit (R86). -/
theorem execSeq_disabled {l : List Instr} {s t : State} (inv : BlockInv s) (disabled : s.regs.cap.tx = false)
    (inputs : ∀ i ∈ l, isInput i = true ∧ i ≠ .reset) (run : execSeq l s = .next t) :
    t.regs.cap.tx = false ∧
      ∃ events, t.env.out = s.env.out ++ events ∧ ∀ e ∈ events, e.word ≠ encode .drvStartTransmit := by
  induction l generalizing s with
  | nil =>
    obtain rfl := Host.Outcome.next.inj run
    exact ⟨disabled, [], by simp, by simp⟩
  | cons i l ih =>
    obtain ⟨input, notReset⟩ := inputs i List.mem_cons_self
    obtain ⟨u, first⟩ := exec_next i s
    rw [execSeq_cons_next first] at run
    obtain ⟨ev, out, adds⟩ := exec_adds first
    obtain ⟨capTx, rest, out', noStart⟩ :=
      ih (blockInv_exec inv (.inl input) first) (capTx_stays_false first notReset disabled)
        (fun j mem => inputs j (List.mem_cons_of_mem i mem)) run
    have quiet := word_ne_of_not_mem (adds.not_startTransmit input (phase_ne_txAttempt_of_disabled inv disabled))
    refine ⟨capTx, ev ++ rest, by rw [out', out, List.append_assoc], fun e mem => ?_⟩
    exact (List.mem_append.mp mem).elim (quiet e) (noStart e)

end Sys2Proof.Machine
end

section
/-! PROOFS. The obligations about the invariant (spec/41_scheduler_tick.md §6, spec/42_scheduler_idle_branch.md R86). -/

namespace Sys2Proof.Proofs

open Sys2Proof Sys2Proof.Machine Sys2Proof.Safety

/-- Settles O56: by the inversion of `exec`, each way an input ends keeps the invariant. -/
theorem stepKeepsInvariant : Obligations.StepKeepsInvariant :=
  fun _ _ => blockInv_step

/-- Settles O55: the state after reset holds the reset registers, and nothing is to come. -/
theorem resetHasInvariant : Obligations.ResetHasInvariant :=
  blockInv_of_resetRegs (fun _ mem => absurd mem List.not_mem_nil) rfl

/-- Settles O58, by induction on the inputs: the invariant shuts out PH_TX_ATTEMPT while CAP.tx is 0. -/
theorem noTransmitOnceDisabled : Obligations.NoTransmitOnceDisabled :=
  fun _ _ _ => execSeq_disabled

end Sys2Proof.Proofs
end

section
/-! PROOFS. The clock and the outbound queue over every operation (spec/45_guard_timer.md R103,
spec/20_memory.md R44). -/

namespace Sys2Proof.Machine

open Sys2Proof Sys2Proof.Safety

/-- The clock and the outbound queue of `t` are those of `s`. -/
structure KeepsClockQueue (s t : State) : Prop where
  clock : t.env.clock = s.env.clock
  outq : t.env.outq = s.env.outq

theorem KeepsClockQueue.refl (s : State) : KeepsClockQueue s s := ⟨rfl, rfl⟩

theorem KeepsClockQueue.trans {s t u : State} (h : KeepsClockQueue s t) (k : KeepsClockQueue t u) :
    KeepsClockQueue s u :=
  ⟨k.clock.trans h.clock, k.outq.trans h.outq⟩

theorem keepsClockQueue_driverCall {α : Type} (sel : Draw → Option α) (free : Nat → α) (event : α → PortEvent)
    (s : State) : KeepsClockQueue s (driverCall sel free event s).2 := ⟨rfl, rfl⟩

theorem keepsClockQueue_freqSwitch (dir : Dir) (s : State) : KeepsClockQueue s (freqSwitch dir s).2 := by
  unfold freqSwitch
  split
  · exact keepsClockQueue_driverCall _ _ _ s
  · exact .refl s

/-- A driver call behind the frequency switch moves neither the clock nor the queue. -/
theorem keepsClockQueue_afterSwitch (dir : Dir) (call : State → Status × State)
    (kept : ∀ t, KeepsClockQueue t (call t).2) (s : State) : KeepsClockQueue s (afterSwitch dir call s).2 := by
  unfold afterSwitch
  dsimp only
  split
  · exact (keepsClockQueue_freqSwitch dir s).trans (kept _)
  · exact keepsClockQueue_freqSwitch dir s

theorem keepsClockQueue_rxArm (s : State) : KeepsClockQueue s (rxArm s).2 :=
  keepsClockQueue_afterSwitch _ _ (fun t => keepsClockQueue_driverCall _ _ _ t) s

theorem keepsClockQueue_scanArm (s : State) : KeepsClockQueue s (scanArm s).2 :=
  keepsClockQueue_afterSwitch _ _ (fun t => keepsClockQueue_driverCall _ _ _ t) s

theorem keepsClockQueue_txStart (frame : List Byte) (s : State) : KeepsClockQueue s (txStart frame s).2 :=
  keepsClockQueue_afterSwitch _ _ (fun t => keepsClockQueue_driverCall _ _ _ t) s

theorem keepsClockQueue_receiveInProgress (s : State) : KeepsClockQueue s (receiveInProgress s).2 := by
  unfold receiveInProgress
  split
  · exact .refl s
  · exact keepsClockQueue_driverCall _ _ _ s

/-- Consuming a frame only takes draws and sends commands (R76). -/
theorem keepsClockQueue_consumeFrame (s : State) : KeepsClockQueue s (consumeFrame s) := by
  rw [consumeFrame_eq]
  split_ifs
  · exact ⟨rfl, rfl⟩
  · rw [acceptFrame_afterCommands]
    exact ⟨rfl, rfl⟩
  · rw [logUnrecognized_afterCommands]
    exact ⟨rfl, rfl⟩

theorem keepsClockQueue_phRxConsume (s : State) : KeepsClockQueue s (phRxConsume s) := by
  obtain ⟨clock, outq⟩ := keepsClockQueue_consumeFrame s
  unfold phRxConsume
  split
  · exact ⟨clock, outq⟩
  · exact ⟨rfl, rfl⟩

theorem keepsClockQueue_phPreambleArm (s : State) : KeepsClockQueue s (phPreambleArm s) := by
  obtain ⟨clock, outq⟩ := keepsClockQueue_rxArm s
  rw [phPreambleArm_eq, armReceive_eq]
  split_ifs
  · exact ⟨clock, outq⟩
  · exact ⟨clock, outq⟩
  · exact ⟨rfl, rfl⟩

theorem keepsClockQueue_phScanRearm (s : State) : KeepsClockQueue s (phScanRearm s) := by
  obtain ⟨clock, outq⟩ := keepsClockQueue_scanArm s
  rw [phScanRearm_eq, rearmScan_eq]
  split_ifs
  · exact ⟨clock, outq⟩
  · exact ⟨clock, outq⟩
  · exact ⟨rfl, rfl⟩

/-- A transmit start that is over moves neither. -/
theorem keepsClockQueue_transmitStarted (st : Status) (s : State) : KeepsClockQueue s (transmitStarted st s) := by
  rw [transmitStarted_eq]
  split_ifs <;> exact ⟨rfl, rfl⟩

/-- Sending a message takes it off the queue and leaves the clock (R84, R122). -/
theorem transmitOne_clock_outq (s : State) :
    (transmitOne s).env.clock = s.env.clock ∧ (transmitOne s).env.outq = s.env.outq.tail := by
  have clock := (portsOnly_outqDequeue s).clock
  have outq := outqDequeue_outq s
  unfold transmitOne
  dsimp only
  generalize outqDequeue s = m at clock outq ⊢
  have sent := keepsClockQueue_txStart (txFrame s m.1) m.2
  generalize txStart (txFrame s m.1) m.2 = d at sent ⊢
  have started := sent.trans (keepsClockQueue_transmitStarted d.1 d.2)
  exact ⟨started.clock.trans clock, started.outq.trans outq⟩

/-- PH_TX_ATTEMPT leaves the clock, and takes at most the head of the queue (R84). -/
theorem phTxAttempt_clock_outq (s : State) :
    (phTxAttempt s).env.clock = s.env.clock ∧
      ((phTxAttempt s).env.outq = s.env.outq ∨ (phTxAttempt s).env.outq = s.env.outq.tail) := by
  have asked : KeepsClockQueue s (outqEmpty s).2 := ⟨rfl, rfl⟩
  unfold phTxAttempt
  generalize outqEmpty s = e at asked ⊢
  have probed := asked.trans (keepsClockQueue_receiveInProgress e.2)
  dsimp only
  generalize receiveInProgress e.2 = b at probed ⊢
  split_ifs <;> rw [setPhase_env]
  · exact ⟨asked.clock, .inl asked.outq⟩
  · exact ⟨probed.clock, .inl probed.outq⟩
  · obtain ⟨clock, outq⟩ := transmitOne_clock_outq b.2
    exact ⟨clock.trans probed.clock, .inr (outq.trans (congrArg List.tail probed.outq))⟩

/-- What a phase does to the clock and the queue: the two phases that sample the time move the one forward, and
PH_TX_ATTEMPT may take the head of the other. -/
theorem runPhase_clock_outq (s : State) :
    KeepsClockQueue s (runPhase s) ∨
      ((s.regs.phase = .txComplete ∨ s.regs.phase = .guardCheck) ∧ s.env.clock ≤ (runPhase s).env.clock ∧
        (runPhase s).env.outq = s.env.outq) ∨
      (s.regs.phase = .txAttempt ∧ (runPhase s).env.clock = s.env.clock ∧
        ((runPhase s).env.outq = s.env.outq ∨ (runPhase s).env.outq = s.env.outq.tail)) := by
  rw [runPhase_eq_phaseRule]
  cases s.regs.phase with
  | idle | sample | gateOff | latchClear | gateOn => exact .inl ⟨rfl, rfl⟩
  | rxConsume => exact .inl (keepsClockQueue_phRxConsume s)
  | preambleArm => exact .inl (keepsClockQueue_phPreambleArm s)
  | scanRearm => exact .inl (keepsClockQueue_phScanRearm s)
  | txComplete => exact .inr (.inl ⟨.inl rfl, advance_le _ _ _, rfl⟩)
  | guardCheck => exact .inr (.inl ⟨.inr rfl, advance_le _ _ _, rfl⟩)
  | txAttempt => exact .inr (.inr ⟨rfl, phTxAttempt_clock_outq s⟩)

/-- What an operation does to the clock and the queue. -/
inductive ClockQueue (i : Instr) (s t : State) : Prop where
  /-- neither changes -/
  | kept (same : KeepsClockQueue s t)
  /-- a time sample moves the clock forward -/
  | sampled (runs : Runs i s .txComplete ∨ Runs i s .guardCheck) (later : s.env.clock ≤ t.env.clock)
      (outq : t.env.outq = s.env.outq)
  /-- a dequeue takes at most the head of the queue -/
  | dequeued (by' : Runs i s .txAttempt ∨ i = .outqDequeue) (clock : t.env.clock = s.env.clock)
      (outq : t.env.outq = s.env.outq ∨ t.env.outq = s.env.outq.tail)

/-- Every operation does one of the three. -/
theorem exec_clockQueue {i : Instr} {s t : State} (run : exec i s = .next t) : ClockQueue i s t := by
  cases exec_cases run with
  | refused why _ result => exact .kept (result ▸ ⟨rfl, rfl⟩)
  | reset _ result => exact .kept (result ▸ ⟨rfl, rfl⟩)
  | setup _ _ result =>
    obtain ⟨-, -, -, clock, outq, -⟩ := setupBody_spec s
    exact .kept (result ▸ ⟨clock, outq⟩)
  | tickBegin _ _ result => exact .kept (result ▸ ⟨rfl, rfl⟩)
  | phase p runs result =>
    have held := runs.held
    subst result held
    obtain same | ⟨samples, later, outq⟩ | ⟨attempts, clock, outq⟩ := runPhase_clock_outq s
    · exact .kept same
    · exact .sampled (samples.imp (fun h => by rwa [h] at runs) fun h => by rwa [h] at runs) later outq
    · exact .dequeued (.inl (by rwa [attempts] at runs)) clock outq
  | done _ _ result => exact .kept (result ▸ ⟨by rw [handler_env], by rw [handler_env]⟩)
  | preamble _ _ result => exact .kept (result ▸ ⟨by rw [handler_env], by rw [handler_env]⟩)
  | idle _ _ _ result => exact .kept (result ▸ ⟨rfl, rfl⟩)
  | command _ _ effect =>
    obtain same | ⟨is, tail⟩ := effect.outq
    · exact .kept ⟨effect.clock, same⟩
    · exact .dequeued (.inr is) effect.clock (.inr tail)

/-- The query of a running timer answers "elapsed" exactly when it has expired (R106). -/
theorem guardElapsed_iff_guardExpired {t : Time} {g : Guard} (running : g.run = true) :
    guardElapsed t g = true ↔ guardExpired t g = true := by
  refine ⟨fun elapsed => ?_, fun expired => ?_⟩
  · by_contra waiting
    exact Bool.false_ne_true ((guardElapsed_of_not_expired running waiting).symm.trans elapsed)
  · rw [guardElapsed_iff, guardQuery_of_elapsed (.inr expired)]

/-- Any later true time is the next with its own sample, some whole turns of the counter on (R103). -/
theorem advance_to {clock later : Nat} (h : clock ≤ later) :
    advance clock (BitVec.ofNat 32 later) ((later - clock) / 2 ^ 32) = later := by
  simp only [advance, BitVec.toNat_sub, BitVec.toNat_ofNat]
  omega

end Sys2Proof.Machine
end

section
/-! PROOFS. The obligations about the clock, the queue and the draws (spec/45_guard_timer.md, spec/20_memory.md §6,
spec/30_encoding.md §5). -/

namespace Sys2Proof.Proofs

open Sys2Proof Sys2Proof.Machine Sys2Proof.Safety

/-- Settles O47: a sample is where the clock advances to, and only the two phases that sample move it. -/
theorem clockLaw : Obligations.ClockLaw := by
  refine ⟨fun s => ⟨(advance_sample _ _ _).symm, advance_le _ _ _⟩, fun s later after => ?_, fun i s t run => ?_⟩
  · exact ⟨BitVec.ofNat 32 later, (later - s.env.clock) / 2 ^ 32, advance_to after, rfl⟩
  · cases exec_clockQueue run with
    | kept same => exact ⟨same.clock.ge, fun moved => absurd same.clock moved⟩
    | sampled runs later _ => exact ⟨later, fun _ => runs⟩
    | dequeued _ clock _ => exact ⟨clock.ge, fun moved => absurd clock moved⟩

/-- Settles O48: only a dequeue takes from the queue, and a step appends the line's messages first. -/
theorem queueLaw : Obligations.QueueLaw := by
  have operation {i : Instr} {s t : State} (run : exec i s = .next t) :
      t.env.outq = s.env.outq ∨ ((Runs i s .txAttempt ∨ i = .outqDequeue) ∧ t.env.outq = s.env.outq.tail) := by
    cases exec_clockQueue run with
    | kept same => exact .inl same.outq
    | sampled _ _ outq => exact .inl outq
    | dequeued by' _ outq => exact outq.imp_right fun tail => ⟨by', tail⟩
  refine ⟨fun i s t run => operation run, fun s t l rest pending run => ?_⟩
  cases word : decode l.word with
  | op i => exact (operation ((step_of_op pending word).symm.trans run)).imp_right And.right
  | reserved =>
    obtain rfl := Host.Outcome.next.inj ((step_of_reserved pending word).symm.trans run)
    exact .inl rfl

/-- Settles O18 by what a name selects from a list of draws. -/
theorem drawsInOrder : Obligations.DrawsInOrder := by
  intro α sel free k
  refine ⟨fun before after d a first found => ?_, fun draws missing => ?_, fun answer =>
    ⟨fun before after d a first found => ?_, fun draws missing => ?_⟩⟩
  · rw [drawFrom, takeDraw_first sel before after d a first found]
  · rw [drawFrom, takeDraw_none sel draws missing]
  · rw [confirmed, takeDraw_first sel before after d a first found]
  · rw [confirmed, takeDraw_none sel draws missing]

/-- Settles O46: in integers the query of a running timer compares the duration with the difference of the samples. -/
theorem guardSeesElapsedModulo : Obligations.GuardSeesElapsedModulo := by
  intro t0 t1 d ordered
  have difference : (t1 % 2 ^ 32 + 2 ^ 32 - t0 % 2 ^ 32) % 2 ^ 32 = (t1 - t0) % 2 ^ 32 := by omega
  rw [guardElapsed_iff_guardExpired rfl, guardExpired_iff]
  simp only [guardStart, BitVec.toNat_ofNat, difference]

end Sys2Proof.Proofs
end

section
/-! PROOFS. The phase graph: where each phase rule ends, and how far that still is from the end of the tick
(spec/41_scheduler_tick.md R72). -/

namespace Sys2Proof.Machine

open Sys2Proof Sys2Proof.Safety

/-- The arrow of the phase graph that the phase `p` follows at `s` when its rule leaves `t` (R72). -/
def nextPhase (s t : State) : Phase → Phase
  | .idle => .idle
  | .sample => if s.regs.latch.opDone = true ∨ s.regs.latch.pre = true then .gateOff else .guardCheck
  | .gateOff => if s.regs.txinfl = true then .txComplete else .rxConsume
  | .txComplete => if s.params.rescanAfterTx = true then .scanRearm else .latchClear
  | .rxConsume => .preambleArm
  | .preambleArm => .scanRearm
  | .scanRearm => .latchClear
  | .latchClear => .gateOn
  | .gateOn => .idle
  | .guardCheck =>
    if t.regs.guard.run = false ∧ s.regs.cap.tx = true ∧ s.regs.txinfl = false then .txAttempt else .idle
  | .txAttempt => .idle

/-- Every phase rule follows its arrow. -/
theorem runPhase_phase (s : State) : (runPhase s).regs.phase = nextPhase s (runPhase s) s.regs.phase := by
  rw [runPhase_eq_phaseRule]
  cases held : s.regs.phase with
  | idle => exact held
  | sample => simp only [phaseRule, phSample_eq, nextPhase, Latch.any_eq_true_iff]
  | gateOff | txComplete | latchClear | gateOn => rfl
  | rxConsume => exact congrArg Regs.phase (phRxConsume_regs s)
  | preambleArm => exact congrArg Regs.phase (phPreambleArm_regs s)
  | scanRearm => exact congrArg Regs.phase (phScanRearm_regs s)
  | guardCheck =>
    simp only [phaseRule, phGuardCheck_regs, nextPhase, Bool.and_eq_true, guardElapsed_iff, Bool.not_eq_true',
      and_assoc]
  | txAttempt =>
    obtain regs | ⟨st, regs⟩ := phTxAttempt_regs s <;> exact congrArg Regs.phase regs

/-- Only the arrow of PH_GUARD_CHECK leads to PH_TX_ATTEMPT (R85, R86, R87). -/
theorem nextPhase_eq_txAttempt {s t : State} {p : Phase} (h : nextPhase s t p = .txAttempt) :
    p = .guardCheck ∧ t.regs.guard.run = false ∧ s.regs.cap.tx = true ∧ s.regs.txinfl = false := by
  unfold nextPhase at h
  cases p with
  | guardCheck =>
    dsimp only at h
    split_ifs at h with allowed
    exact ⟨rfl, allowed⟩
  | sample | gateOff | txComplete => dsimp only at h; split_ifs at h
  | _ => cases h

/-- Every arrow out of a tick's phase leads nearer to the end of the tick (R72). -/
theorem phasesLeft_nextPhase_lt (s t : State) {p : Phase} (busy : p ≠ .idle) :
    phasesLeft (nextPhase s t p) < phasesLeft p := by
  unfold nextPhase
  cases p with
  | idle => exact absurd rfl busy
  | sample | gateOff | txComplete | guardCheck => dsimp only; split_ifs <;> decide
  | _ => simp [phasesLeft]

/-- A tick with no phase left is over. -/
theorem eq_idle_of_phasesLeft_le_zero {p : Phase} (h : phasesLeft p ≤ 0) : p = .idle := by
  cases p with
  | idle => rfl
  | _ => exact absurd h (by decide)

/-- A handler leaves PHASE as it is. -/
theorem handler_phase (l : IrqLine) (s : State) : (handler l s).regs.phase = s.regs.phase := by
  obtain h | ⟨-, h⟩ := handler_regs l s <;> rw [h]

/-- An operation that newly brings PHASE to PH_TX_ATTEMPT runs a phase whose arrow leads there. -/
theorem exec_phase_txAttempt {i : Instr} {s t : State} (run : exec i s = .next t) (reached : t.regs.phase = .txAttempt)
    (fresh : s.regs.phase ≠ .txAttempt) :
    Runs i s .guardCheck ∧ t = runPhase s ∧ t.regs.guard.run = false ∧ s.regs.cap.tx = true ∧
      s.regs.txinfl = false := by
  have unmoved {P : Prop} (h : t.regs.phase = s.regs.phase) : P := absurd (h.symm.trans reached) fresh
  cases exec_cases run with
  | refused why _ result => exact unmoved (result ▸ rfl)
  | reset _ result => subst result; cases reached
  | setup _ _ result =>
    obtain ⟨⟨c, f, regs, -⟩, -⟩ := setupBody_spec s
    exact unmoved (by rw [result, regs])
  | tickBegin _ _ result => subst result; cases reached
  | phase p runs result =>
    rw [result, runPhase_phase, runs.held] at reached
    obtain ⟨rfl, allowed⟩ := nextPhase_eq_txAttempt reached
    exact ⟨runs, result, result ▸ allowed⟩
  | done _ _ result => exact unmoved (result ▸ handler_phase .line0 s)
  | preamble _ _ result => exact unmoved (result ▸ handler_phase .line1 s)
  | idle _ _ _ result => exact unmoved (result ▸ rfl)
  | command _ _ effect =>
    obtain regs | ⟨-, l, regs⟩ := effect.regs <;> exact unmoved (by rw [regs])

/-- A timer that runs when PH_GUARD_CHECK queries it and stands still afterwards had expired at the sample (R106). -/
theorem guardExpired_of_stopped {t : Time} {g : Guard} (running : g.run = true)
    (stopped : (guardQuery t g).run = false) : guardExpired t g = true := by
  obtain same | ⟨-, expired, -⟩ := guardQuery_cases t g
  · rw [same, running] at stopped
    cases stopped
  · exact expired

end Sys2Proof.Machine
end

section
/-! PROOFS. The interrupt words in any state, two of them one after another, and one beside a STEP
(spec/44_interrupt_latch_sync.md R97 to R101, spec/70_reset_and_hazards.md R145). -/

namespace Sys2Proof.Machine

open Sys2Proof Sys2Proof.Safety

/-- The two interrupt words are the handlers of the two lines, outside a refused state (R94, R95). -/
theorem exec_irq {i : Instr} (irq : i = .irqDone ∨ i = .irqPreamble) :
    ∃ l, ∀ s : State, s.regs.refused = false → exec i s = .next (handler l s) := by
  obtain rfl | rfl := irq
  · exact ⟨.line0, fun _ => exec_irqDone_of_notRefused⟩
  · exact ⟨.line1, fun _ => exec_irqPreamble_of_notRefused⟩

/-- An interrupt word is not RESET. -/
theorem irq_ne_reset {i : Instr} (irq : i = .irqDone ∨ i = .irqPreamble) : i ≠ .reset := by
  obtain rfl | rfl := irq <;> decide

/-- An interrupt event behind a closed gate leaves no trace, refused or not (R97). -/
theorem exec_irq_of_gated {i : Instr} {s : State} (irq : i = .irqDone ∨ i = .irqPreamble)
    (gate : s.regs.gate = false) : exec i s = .next s := by
  cases refused : s.regs.refused with
  | true => exact exec_of_refused refused (irq_ne_reset irq)
  | false =>
    obtain ⟨l, run⟩ := exec_irq irq
    rw [run s refused, handler_of_shut (.inr gate)]

/-- The handler of line 0 in any state: it sets its latch when its line is registered and the gate is open. -/
theorem handler_line0 (s : State) :
    handler .line0 s =
      s.withRegs fun r =>
        { r with latch := { r.latch with opDone := r.latch.opDone || (r.irqreg.line0 && r.gate) } } := by
  unfold handler lineRegistered
  cases h : s.regs.irqreg.line0 && s.regs.gate <;> simp [State.withRegs, setLatch, h]

/-- The handler of line 1 in any state. -/
theorem handler_line1 (s : State) :
    handler .line1 s =
      s.withRegs fun r => { r with latch := { r.latch with pre := r.latch.pre || (r.irqreg.line1 && r.gate) } } := by
  unfold handler lineRegistered
  cases h : s.regs.irqreg.line1 && s.regs.gate <;> simp [State.withRegs, setLatch, h]

/-- A handler run twice has the effect of once (R98). -/
theorem handler_handler (l : IrqLine) (s : State) : handler l (handler l s) = handler l s := by
  cases l
  · simp [handler_line0, State.withRegs]
  · simp [handler_line1, State.withRegs]

/-- The two handlers write different latches, so that their order does not matter (R100). -/
theorem handler_comm (s : State) : handler .line1 (handler .line0 s) = handler .line0 (handler .line1 s) := by
  simp only [handler_line0, handler_line1]
  rfl

/-- A handler does not look at PHASE, so that it may run before or after a write of PHASE. -/
theorem handler_setPhase (l : IrqLine) (p : Phase) (s : State) :
    handler l (setPhase p s) = setPhase p (handler l s) := by
  cases l
  · simp only [handler_line0]
    rfl
  · simp only [handler_line1]
    rfl

/-- A handler keeps a latch that is set. -/
theorem handler_any {l : IrqLine} {s : State} (latched : s.regs.latch.any = true) :
    (handler l s).regs.latch.any = true := by
  obtain h | ⟨-, h⟩ := handler_regs l s <;> rw [h]
  · exact latched
  · cases l <;> simp [setLatch, Latch.any]

/-- PH_SAMPLE with a latch set writes PHASE alone (R73). -/
theorem runPhase_of_latched {s : State} (held : s.regs.phase = .sample) (latched : s.regs.latch.any = true) :
    runPhase s = setPhase .gateOff s := by
  rw [runPhase_eq_phaseRule, held, phaseRule, phSample, latched, if_pos rfl]

/-- Two operations that both answer next states run one after the other. -/
theorem execSeq_pair {i j : Instr} {s t u : State} (first : exec i s = .next t) (second : exec j t = .next u) :
    execSeq [i, j] s = .next u := by
  rw [execSeq_cons_next first, execSeq_cons_next second, execSeq]

theorem execSeq_single {i : Instr} {s t : State} (run : exec i s = .next t) : execSeq [i] s = .next t := by
  rw [execSeq_cons_next run, execSeq]

/-- Operations that leave the state one by one leave it together. -/
theorem execSeq_of_forall {l : List Instr} {s : State} (h : ∀ i ∈ l, exec i s = .next s) : execSeq l s = .next s := by
  induction l with
  | nil => rfl
  | cons i l ih =>
    rw [execSeq_cons_next (h i List.mem_cons_self)]
    exact ih fun j mem => h j (List.mem_cons_of_mem i mem)

end Sys2Proof.Machine
end

section
/-! PROOFS. Ticks as runs of STEPs (spec/41_scheduler_tick.md R72, spec/30_encoding.md R62). -/

namespace Sys2Proof.Machine

open Sys2Proof Sys2Proof.Safety

/-- Between two phases of a tick, an operation of a tick does not lead away from its end, and a STEP leads nearer. -/
theorem exec_in_tick {i : Instr} {s : State} (tick : i = .step ∨ i = .irqDone ∨ i = .irqPreamble)
    (notRefused : s.regs.refused = false) (busy : s.regs.phase ≠ .idle) :
    ∃ t, exec i s = .next t ∧ t.regs.refused = false ∧
      phasesLeft t.regs.phase + [i].count .step ≤ phasesLeft s.regs.phase := by
  obtain rfl | irq := tick
  · obtain ⟨-, -, -, -, kept, -⟩ := runPhase_fixed s
    refine ⟨runPhase s, exec_runs (runs_step ⟨notRefused, busy⟩), kept.trans notRefused, ?_⟩
    rw [runPhase_phase]
    exact phasesLeft_nextPhase_lt s _ busy
  · obtain ⟨l, run⟩ := exec_irq irq
    refine ⟨handler l s, run s notRefused, (handler_refused l s).trans notRefused, ?_⟩
    rw [handler_phase, List.count_eq_zero.mpr (by obtain rfl | rfl := irq <;> decide)]
    exact le_rfl

/-- A run with as many STEPs as the tick has phases left brings PHASE back to PH_IDLE on its way (R72). -/
theorem tick_returns {l : List Instr} {s : State} (ticks : ∀ i ∈ l, i = .step ∨ i = .irqDone ∨ i = .irqPreamble)
    (notRefused : s.regs.refused = false) (enough : phasesLeft s.regs.phase ≤ l.count .step) :
    ∃ first rest t,
      l = first ++ rest ∧ execSeq first s = .next t ∧ t.regs.phase = .idle ∧ t.regs.refused = false := by
  induction l generalizing s with
  | nil => exact ⟨[], [], s, rfl, rfl, eq_idle_of_phasesLeft_le_zero enough, notRefused⟩
  | cons i l ih =>
    by_cases idle : s.regs.phase = .idle
    · exact ⟨[], i :: l, s, rfl, rfl, idle, notRefused⟩
    · obtain ⟨u, run, notRefused', nearer⟩ := exec_in_tick (ticks i List.mem_cons_self) notRefused idle
      have enough' : phasesLeft u.regs.phase ≤ l.count .step := by
        rw [← List.singleton_append, List.count_append] at enough
        omega
      obtain ⟨first, rest, t, rfl, runs, ended⟩ :=
        ih (fun j mem => ticks j (List.mem_cons_of_mem i mem)) notRefused' enough'
      exact ⟨i :: first, rest, t, rfl, (execSeq_cons_next run).trans runs, ended⟩

/-- The rest of a tick without interrupts: `n` phases from `s` on, the last of which ends the tick at `t`. -/
inductive Ticks : Nat → State → State → Prop where
  | ended {s : State} (idle : s.regs.phase = .idle) : Ticks 0 s s
  | phase {n : Nat} {s t : State} (busy : s.regs.phase ≠ .idle) (rest : Ticks n (runPhase s) t) : Ticks (n + 1) s t

/-- The phases of a tick are run by as many STEPs, and by no fewer. -/
theorem Ticks.execSeq {n : Nat} {s t : State} (h : Ticks n s t) (notRefused : s.regs.refused = false) :
    execSeq (List.replicate n .step) s = .next t ∧ t.regs.phase = .idle ∧
      ∀ m, m < n → ∃ u, Safety.execSeq (List.replicate m .step) s = .next u ∧ u.regs.phase ≠ .idle := by
  induction h with
  | ended idle => exact ⟨rfl, idle, fun m less => absurd less m.not_lt_zero⟩
  | @phase n s t busy _ ih =>
    obtain ⟨-, -, -, -, kept, -⟩ := runPhase_fixed s
    obtain ⟨run, idle, fewer⟩ := ih (kept.trans notRefused)
    have step : exec .step s = .next (runPhase s) := exec_runs (runs_step ⟨notRefused, busy⟩)
    refine ⟨(execSeq_cons_next step).trans run, idle, fun m less => ?_⟩
    cases m with
    | zero => exact ⟨s, rfl, busy⟩
    | succ m =>
      obtain ⟨u, run', busy'⟩ := fewer m (Nat.lt_of_succ_lt_succ less)
      exact ⟨u, (execSeq_cons_next step).trans run', busy'⟩

/-- A phase, and what is left of the tick where its arrow leads. -/
theorem ticks_of_arrow {n : Nat} {s : State} {p q : Phase} (held : s.regs.phase = p) (busy : p ≠ .idle)
    (arrow : nextPhase s (runPhase s) p = q)
    (rest : (runPhase s).regs.phase = q → ∃ t, Ticks n (runPhase s) t) : ∃ t, Ticks (n + 1) s t := by
  obtain ⟨t, ticks⟩ := rest ((runPhase_phase s).trans ((congrArg _ held).trans arrow))
  exact ⟨t, .phase (held ▸ busy) ticks⟩

/-- The exit of the interrupt branch from PH_LATCH_CLEAR on. -/
theorem ticks_latchClear {s : State} (held : s.regs.phase = .latchClear) : ∃ t, Ticks 2 s t :=
  ticks_of_arrow (q := .gateOn) held (by decide) rfl fun held =>
    ticks_of_arrow held (by decide) rfl fun idle => ⟨_, .ended idle⟩

/-- The exit from PH_SCAN_REARM on. -/
theorem ticks_scanRearm {s : State} (held : s.regs.phase = .scanRearm) : ∃ t, Ticks 3 s t :=
  ticks_of_arrow held (by decide) rfl ticks_latchClear

/-- The receive path from PH_RX_CONSUME on. -/
theorem ticks_rxConsume {s : State} (held : s.regs.phase = .rxConsume) : ∃ t, Ticks 5 s t :=
  ticks_of_arrow (q := .preambleArm) held (by decide) rfl fun held =>
    ticks_of_arrow held (by decide) rfl ticks_scanRearm

/-- The transmit path from PH_TX_COMPLETE on, by RESCAN_AFTER_TX. -/
theorem ticks_txComplete {s : State} (held : s.regs.phase = .txComplete) :
    ∃ t, Ticks (if s.params.rescanAfterTx then 4 else 3) s t := by
  split
  · next rescan => exact ticks_of_arrow held (by decide) (if_pos rescan) ticks_scanRearm
  · next noRescan => exact ticks_of_arrow held (by decide) (if_neg noRescan) ticks_latchClear

/-- The interrupt branch from PH_GATE_OFF on, by TXINFL. -/
theorem ticks_gateOff {s : State} (held : s.regs.phase = .gateOff) :
    ∃ t, Ticks ((if s.regs.txinfl then (if s.params.rescanAfterTx then 4 else 3) else 5) + 1) s t := by
  split
  · next inFlight =>
    rw [← (keeps_runPhase s).params]
    exact ticks_of_arrow held (by decide) (if_pos inFlight) ticks_txComplete
  · next quiet => exact ticks_of_arrow held (by decide) (if_neg quiet) ticks_rxConsume

/-- A tick that finds a latch set (R73). -/
theorem ticks_of_latched {s : State} (held : s.regs.phase = .sample) (latched : s.regs.latch.any = true) :
    ∃ t, Ticks ((if s.regs.txinfl then (if s.params.rescanAfterTx then 4 else 3) else 5) + 1 + 1) s t := by
  refine ticks_of_arrow held (by decide) (if_pos ((Latch.any_eq_true_iff _).mp latched)) ?_
  rw [runPhase_of_latched held latched]
  exact ticks_gateOff

/-- PH_SAMPLE with no latch set writes PHASE alone (R73). -/
theorem runPhase_of_not_latched {s : State} (held : s.regs.phase = .sample) (quiet : s.regs.latch.any = false) :
    runPhase s = setPhase .guardCheck s := by
  rw [runPhase_eq_phaseRule, held, phaseRule, phSample, quiet, if_neg Bool.false_ne_true]

/-- PH_TX_ATTEMPT leaves the guard timer as it is (R84). -/
theorem phTxAttempt_guard (s : State) : (phTxAttempt s).regs.guard = s.regs.guard := by
  obtain regs | ⟨st, regs⟩ := phTxAttempt_regs s <;> rw [regs]
  rw [transmitStarted_regs]

/-- A tick that finds no latch set ends at PH_GUARD_CHECK, or goes on to PH_TX_ATTEMPT as the guard, CAP.tx and TXINFL
allow (R83). -/
theorem ticks_of_not_latched {s : State} (held : s.regs.phase = .sample) (noLatch : s.regs.latch.any = false) :
    ∃ t, Ticks (if t.regs.guard.run = false ∧ s.regs.cap.tx = true ∧ s.regs.txinfl = false then 3 else 2) s t := by
  have sampled := runPhase_of_not_latched held noLatch
  have busy : s.regs.phase ≠ .idle := by simp [held]
  generalize hu : setPhase .guardCheck s = u at sampled
  have checks : u.regs.phase ≠ .idle := by simp [← hu]
  have arrow : (runPhase u).regs.phase =
      if (runPhase u).regs.guard.run = false ∧ s.regs.cap.tx = true ∧ s.regs.txinfl = false then .txAttempt
      else .idle := by
    rw [runPhase_phase, ← hu]
    rfl
  split_ifs at arrow with allowed
  · have guard : (runPhase (runPhase u)).regs.guard = (runPhase u).regs.guard := by
      rw [runPhase_eq_phaseRule (runPhase u), arrow]
      exact phTxAttempt_guard _
    have idle : (runPhase (runPhase u)).regs.phase = .idle := by rw [runPhase_phase, arrow]; rfl
    refine ⟨runPhase (runPhase u), ?_⟩
    rw [guard, if_pos allowed]
    refine .phase busy ?_
    rw [sampled]
    exact .phase checks (.phase (by simp [arrow]) (.ended idle))
  · refine ⟨runPhase u, ?_⟩
    rw [if_neg allowed]
    refine .phase busy ?_
    rw [sampled]
    exact .phase checks (.ended arrow)

/-- A tick without interrupts has the length of R62, from its PH_SAMPLE on. -/
theorem ticks_tickLength {s : State} : ∃ t, Ticks (tickLength s t) (setPhase .sample s) t := by
  cases latched : s.regs.latch.any with
  | true =>
    obtain ⟨t, ticks⟩ := ticks_of_latched (s := setPhase .sample s) rfl latched
    refine ⟨t, ?_⟩
    have length : tickLength s t =
        (if s.regs.txinfl then (if s.params.rescanAfterTx then 4 else 3) else 5) + 1 + 1 := by
      rw [tickLength, if_pos (show (s.regs.latch.opDone || s.regs.latch.pre) = true from latched)]
      split_ifs <;> rfl
    exact length ▸ ticks
  | false =>
    obtain ⟨t, ticks⟩ := ticks_of_not_latched (s := setPhase .sample s) rfl latched
    refine ⟨t, ?_⟩
    rw [tickLength, if_neg (show ¬(s.regs.latch.opDone || s.regs.latch.pre) = true from Bool.eq_false_iff.mp latched)]
    exact ticks

end Sys2Proof.Machine
end

section
/-! PROOFS. The obligations about ticks and interrupt events (spec/41_scheduler_tick.md §1,
spec/42_scheduler_idle_branch.md, spec/44_interrupt_latch_sync.md, spec/70_reset_and_hazards.md §3). -/

namespace Sys2Proof.Proofs

open Sys2Proof Sys2Proof.Machine Sys2Proof.Safety

/-- Settles O26: an operation that runs a phase follows that phase's arrow. -/
theorem phaseGraph : Obligations.PhaseGraph := by
  intro i s p runs
  have arrow := runPhase_phase s
  rw [runs.held] at arrow
  refine ⟨runPhase s, exec_runs runs, arrow.trans ?_⟩
  cases p <;> rfl

/-- Settles O57: only PH_GUARD_CHECK leads to PH_TX_ATTEMPT, with the timer stopped by its query. -/
theorem attemptOnlyAfterGuard : Obligations.AttemptOnlyAfterGuard := by
  intro i s t run reached fresh
  obtain ⟨runs, rfl, stopped, tx, quiet⟩ := exec_phase_txAttempt run reached fresh
  refine ⟨runs, stopped, tx, quiet, fun running => ?_⟩
  rw [runPhase_eq_phaseRule, runs.held, phaseRule, phGuardCheck_regs] at stopped
  exact (guardExpired_iff _ _).mp (guardExpired_of_stopped running stopped)

/-- Settles O42: each event behind the closed gate leaves the state. -/
theorem eventsLostWhileGated : Obligations.EventsLostWhileGated :=
  fun _ _ gate events => execSeq_of_forall fun i mem => exec_irq_of_gated (events i mem) gate

/-- Settles O41 by the two handlers; a refused state stays. -/
theorem handlersCoalesceAndCommute : Obligations.HandlersCoalesceAndCommute := by
  intro s
  cases refused : s.regs.refused with
  | true =>
    have stays {l : List Instr} (events : ∀ i ∈ l, i = .irqDone ∨ i = .irqPreamble) : execSeq l s = .next s :=
      execSeq_of_forall fun i mem => exec_of_refused refused (irq_ne_reset (events i mem))
    refine ⟨?_, ?_, ?_⟩ <;> rw [stays (by simp), stays (by simp)]
  | false =>
    have open' (l : IrqLine) : (handler l s).regs.refused = false := (handler_refused l s).trans refused
    have done := exec_irqDone_of_notRefused refused
    have preamble := exec_irqPreamble_of_notRefused refused
    refine ⟨?_, ?_, ?_⟩
    · rw [execSeq_pair done (exec_irqPreamble_of_notRefused (open' .line0)),
        execSeq_pair preamble (exec_irqDone_of_notRefused (open' .line1)), handler_comm]
    · rw [execSeq_pair done (exec_irqDone_of_notRefused (open' .line0)), execSeq_single done, handler_handler]
    · rw [execSeq_pair preamble (exec_irqPreamble_of_notRefused (open' .line1)), execSeq_single preamble,
        handler_handler]

/-- Settles O43: with a latch set PH_SAMPLE writes PHASE alone, which a handler neither reads nor writes. -/
theorem sampleWindowKeepsEvents : Obligations.SampleWindowKeepsEvents := by
  intro s i held latched irq
  have any : s.regs.latch.any = true := (Latch.any_eq_true_iff _).mpr latched
  cases refused : s.regs.refused with
  | true =>
    have stays {l : List Instr} (others : ∀ j ∈ l, j ≠ .reset) : execSeq l s = .next s :=
      execSeq_of_forall fun j mem => exec_of_refused refused (others j mem)
    rw [stays (by simp [irq_ne_reset irq]), stays (by simp [irq_ne_reset irq])]
  | false =>
    obtain ⟨l, run⟩ := exec_irq irq
    have step {u : State} (notRefused : u.regs.refused = false) (held : u.regs.phase = .sample)
        (any : u.regs.latch.any = true) : exec .step u = .next (setPhase .gateOff u) := by
      rw [exec_runs (runs_step ⟨notRefused, by simp [held]⟩), runPhase_of_latched held any]
    rw [execSeq_pair (step refused held any) (run (setPhase .gateOff s) refused),
      execSeq_pair (run s refused)
        (step ((handler_refused l s).trans refused) ((handler_phase l s).trans held) (handler_any any)),
      handler_setPhase]

/-- Settles O59: PH_SAMPLE has seven phases left, and every STEP takes one at least. -/
theorem everyTickReturns : Obligations.EveryTickReturns := by
  intro s l accepted ticks enough
  obtain ⟨first, rest, t, split, run, ended⟩ := tick_returns (s := setPhase .sample s) ticks accepted.1 enough
  exact ⟨first, rest, t, split, (execSeq_cons_next (exec_tickBegin_of_accepted accepted)).trans run, ended⟩

/-- Settles O60: the phases of the tick are run by as many STEPs, and not by fewer. -/
theorem tickLength : Obligations.TickLength := by
  intro s accepted
  obtain ⟨t, ticks⟩ := ticks_tickLength (s := s)
  obtain ⟨run, idle, fewer⟩ := ticks.execSeq accepted.1
  have begin' (l : List Instr) : execSeq (.tickBegin :: l) s = execSeq l (setPhase .sample s) :=
    execSeq_cons_next (exec_tickBegin_of_accepted accepted)
  simp only [begin']
  exact ⟨_, t, run, idle, rfl, fewer⟩

end Sys2Proof.Proofs
end

section
/-! PROOFS. The words that the block issues: its commands one by one (spec/46_external_ports.md §2, §3), and the phase
words, which do what STEP does (spec/41_scheduler_tick.md R71). -/

namespace Sys2Proof.Machine

open Sys2Proof Sys2Proof.Safety

/-- A command word that the block issues has its effect (R110). -/
theorem unlessRefused_of_issued {s : State} (issued : Issued s) (effect : State → State) :
    unlessRefused (commandRefusal s) effect s = .next (effect s) := by
  rw [commandRefusal_issued issued, unlessRefused]

/-- The same state with another word's record at the boundary. -/
def atPort (p : Port) (s : State) : State := { s with port := p }

theorem setPhase_atPort (p : Port) (q : Phase) (s : State) : setPhase q (atPort p s) = atPort p (setPhase q s) := rfl

theorem freqSwitch_atPort (p : Port) (dir : Dir) (s : State) :
    freqSwitch dir (atPort p s) = ((freqSwitch dir s).1, atPort p (freqSwitch dir s).2) := by
  have same : split (atPort p s) = split s := rfl
  unfold freqSwitch
  rw [same]
  split <;> rfl

/-- A call that does not look at the boundary does not do so behind the frequency switch either. -/
theorem afterSwitch_atPort (p : Port) (dir : Dir) (call : State → Status × State)
    (blind : ∀ s, call (atPort p s) = ((call s).1, atPort p (call s).2)) (s : State) :
    afterSwitch dir call (atPort p s) = ((afterSwitch dir call s).1, atPort p (afterSwitch dir call s).2) := by
  unfold afterSwitch
  rw [freqSwitch_atPort]
  dsimp only
  split
  · exact blind _
  · rfl

theorem rxArm_atPort (p : Port) (s : State) : rxArm (atPort p s) = ((rxArm s).1, atPort p (rxArm s).2) :=
  afterSwitch_atPort p .rx drvStartReceive (fun _ => rfl) s

theorem scanArm_atPort (p : Port) (s : State) : scanArm (atPort p s) = ((scanArm s).1, atPort p (scanArm s).2) :=
  afterSwitch_atPort p .rx drvStartChannelScan (fun _ => rfl) s

theorem txStart_atPort (p : Port) (frame : List Byte) (s : State) :
    txStart frame (atPort p s) = ((txStart frame s).1, atPort p (txStart frame s).2) :=
  afterSwitch_atPort p .tx (drvStartTransmit frame) (fun _ => rfl) s

theorem receiveInProgress_atPort (p : Port) (s : State) :
    receiveInProgress (atPort p s) = ((receiveInProgress s).1, atPort p (receiveInProgress s).2) := by
  have same : split (atPort p s) = split s := rfl
  unfold receiveInProgress
  rw [same]
  split <;> rfl

theorem outqDequeue_atPort (p : Port) (s : State) :
    outqDequeue (atPort p s) = ((outqDequeue s).1, atPort p (outqDequeue s).2) := by
  obtain ⟨regs, params, ⟨outq, clock, draws, free, pending, out⟩, port⟩ := s
  cases outq <;> rfl

theorem transmitStarted_atPort (p : Port) (st : Status) (s : State) :
    transmitStarted st (atPort p s) = atPort p (transmitStarted st s) := by
  rw [transmitStarted_eq, transmitStarted_eq]
  split <;> rfl

theorem transmitOne_atPort (p : Port) (s : State) : transmitOne (atPort p s) = atPort p (transmitOne s) := by
  simp only [transmitOne, outqDequeue_atPort]
  rw [show txFrame (atPort p s) = txFrame s from rfl, txStart_atPort, transmitStarted_atPort]

theorem phTxAttempt_atPort (p : Port) (s : State) : phTxAttempt (atPort p s) = atPort p (phTxAttempt s) := by
  have asked : outqEmpty (atPort p s) = ((outqEmpty s).1, atPort p (outqEmpty s).2) := rfl
  unfold phTxAttempt
  rw [asked]
  generalize outqEmpty s = e
  dsimp only
  rw [receiveInProgress_atPort]
  generalize receiveInProgress e.2 = b
  dsimp only
  split_ifs
  · rfl
  · rfl
  · rw [transmitOne_atPort, setPhase_atPort]

theorem consumeFrame_atPort (p : Port) (s : State) : consumeFrame (atPort p s) = atPort p (consumeFrame s) := by
  rw [consumeFrame_eq, consumeFrame_eq, show (atPort p s).env = s.env from rfl,
    show (atPort p s).params = s.params from rfl]
  split_ifs
  · rfl
  · rw [acceptFrame_afterCommands, acceptFrame_afterCommands]
    rfl
  · rw [logUnrecognized_afterCommands, logUnrecognized_afterCommands]
    rfl

theorem phRxConsume_atPort (p : Port) (s : State) : phRxConsume (atPort p s) = atPort p (phRxConsume s) := by
  simp only [phRxConsume, consumeFrame_atPort, show (atPort p s).regs = s.regs from rfl]
  split_ifs <;> rfl

theorem phPreambleArm_atPort (p : Port) (s : State) : phPreambleArm (atPort p s) = atPort p (phPreambleArm s) := by
  have same : (atPort p s).regs = s.regs := rfl
  simp only [phPreambleArm, armReceive, rxArm_atPort, same]
  split_ifs <;> rfl

theorem phScanRearm_atPort (p : Port) (s : State) : phScanRearm (atPort p s) = atPort p (phScanRearm s) := by
  have same : (atPort p s).regs = s.regs := rfl
  simp only [phScanRearm, rearmScan, scanArm_atPort, same]
  split_ifs <;> rfl

/-- No phase rule looks at the boundary: a phase has no operand (R56). -/
theorem runPhase_atPort (p : Port) (s : State) : runPhase (atPort p s) = atPort p (runPhase s) := by
  rw [runPhase_eq_phaseRule, runPhase_eq_phaseRule, show (atPort p s).regs = s.regs from rfl]
  cases s.regs.phase with
  | rxConsume => exact phRxConsume_atPort p s
  | preambleArm => exact phPreambleArm_atPort p s
  | scanRearm => exact phScanRearm_atPort p s
  | txAttempt => exact phTxAttempt_atPort p s
  | _ => rfl

end Sys2Proof.Machine
end

section
/-! PROOFS. The obligations about the words that the block issues. -/

namespace Sys2Proof.Proofs

open Sys2Proof Sys2Proof.Machine Sys2Proof.Safety

/-- Settles O19: each command is a driver call, with the operands its rule gives. -/
theorem statusCommandsResult : Obligations.StatusCommandsResult := by
  intro s issued c after b k f n r x
  have goes := unlessRefused_of_issued issued
  refine ⟨goes fun s => (drvBegin s).2, goes fun s => (drvSetCrc s).2, fun rx => ?_, fun tx => ?_,
    goes fun s => (drvStartChannelScan s).2, goes fun s => (drvStartReceive s).2,
    goes fun s => (drvStartTransmit (txFrame s s.port.operands.msg) s).2⟩
  · exact (goes fun s => (drvSetFrequency s.port.operands.dir s).2).trans (by rw [rx]; rfl)
  · exact (goes fun s => (drvSetFrequency s.port.operands.dir s).2).trans (by rw [tx]; rfl)

/-- Settles O20: each command is a driver call. -/
theorem dataCommandsResult : Obligations.DataCommandsResult := by
  intro s issued after d r n e m
  have goes := unlessRefused_of_issued issued
  exact ⟨goes fun s => (drvReadData s).2, goes fun s => (drvGetRssi s).2, goes fun s => (drvGetSnr s).2,
    goes fun s => (drvGetFreqError s).2, goes fun s => (drvGetModemStatus s).2⟩

/-- Settles O21, line by line. -/
theorem attachIrqResult : Obligations.AttachIrqResult := by
  intro s issued
  have goes := unlessRefused_of_issued issued fun s => drvAttachIrq s.port.operands.line s
  exact ⟨fun line => goes.trans (by rw [line]; rfl), fun line => goes.trans (by rw [line]; rfl)⟩

/-- Settles O22: the queue's two operations by their equations, the others are one-way. -/
theorem collaboratorCommandsResult : Obligations.CollaboratorCommandsResult := by
  refine ⟨fun s issued => ?_, fun _ _ _ _ _ _ => rfl⟩
  intro after empty
  have goes := unlessRefused_of_issued issued
  refine ⟨(goes fun s => (outqEmpty s).2).trans ?_, fun m rest queue => (goes fun s => (outqDequeue s).2).trans ?_,
    goes fun s => inqPush s.port.operands.payload s, goes fun s => displayShow s.port.operands.msg s,
    goes fun s => logEmit s.port.operands.record s⟩
  · rw [outqEmpty_eq]
    rfl
  · simp only [outqDequeue, queue]
    rfl

/-- Settles O24: STEP and the phase's own word run the same rule, which does not look at the boundary. -/
theorem stepRunsTheHeldPhase : Obligations.StepRunsTheHeldPhase := by
  intro s accepted
  refine ⟨runPhase s, exec_runs (runs_step accepted), ?_⟩
  have issued : Runs s.regs.phase.instr (atPort { s.port with side := .issued } s) s.regs.phase :=
    ⟨accepted.1, rfl, accepted.2, .inr ⟨rfl, rfl⟩⟩
  refine (exec_runs issued).trans ?_
  rw [runPhase_atPort, (keeps_runPhase s).port]
  rfl

end Sys2Proof.Proofs
end
